-- ==== Sys2Proof/Word.lean ====
section
/-! DEFINITION. The word types of the Zenlyn Fenit model and their plainest reading (R3, R4, R9). -/

namespace Sys2Proof

/-- A byte of memory, of a buffer or of a cask line (R4). -/
abbrev Byte := BitVec 8
/-- A 32-bit instruction word, or a 32-bit element (R219). -/
abbrev W32 := BitVec 32
/-- The word of the scalar files, of addresses and of engine registers (R216). -/
abbrev W64 := BitVec 64
/-- A vector register (R216). -/
abbrev VReg := BitVec 2048
/-- A register field of a slot word (R222). -/
abbrev R5 := BitVec 5

/-- Bits hi..lo of a 64-bit word, as a number (R3). -/
def fld (w : W64) (hi lo : Nat) : Nat := (w.toNat >>> lo) % 2 ^ (hi + 1 - lo)

/-- One bit of a 64-bit word, as a truth value (R3). -/
def bit (w : W64) (i : Nat) : Bool := w.getLsbD i

end Sys2Proof
end

