-- ==== Sys2Proof/Config.lean ====
section
/-! DEFINITION. What an implementation fixes and the spec does not state: the free values of the model. None has a body,
so no proof can see a value; a statement that holds, holds for every value. -/

namespace Sys2Proof.Config

/-- The byte that stands at physical address or buffer offset `a` after two writes of one copy entry or one MCVT overlap
there: "unpredictable bytes in the overlap" (R100, R198). `n` is the counter State.fresh. -/
opaque overlapByte (n a : Nat) : BitVec 8

/-- Which device register an address inside the device-register frames names, and which word-aligned offset (R47 gives
the frames, no file gives the addresses inside them). -/
opaque devRegIndex (a : Nat) : Nat

/-- The value that a read of an address inside the device-register frames returns where it names no register. -/
opaque frameByte (a : Nat) : BitVec 8

/-- The image of a target, header and bytes, that the boot ROM finds at the n-th reset (R410, R412): no file holds one. -/
opaque bootImage (n target : Nat) : List (BitVec 8)

/-- Whether the n-th self-check of a press finds what it expects (R402). -/
opaque pressPasses (n : Nat) : Bool

/-- The physical base of the ASID table that the work distributor writes into the walker of a die at boot (R51, R410). -/
opaque asidTableBase (die : Nat) : BitVec 52

/-- FKIND of an engine access that meets a fenced host link (R398 gives the trap of a core's access only). -/
opaque fencedKind : BitVec 4

/-- Payload bytes less 1 of a channel packet (R138 gives no chunking of a message). -/
opaque chanChunk : BitVec 12

/-- Coordinates and reduce tag of packet i of message n of a channel (R138 states neither). -/
opaque chanCoord (n i : Nat) : BitVec 64

/-- The reduce tag of packet i of message n of a channel. -/
opaque chanTag (n i : Nat) : BitVec 64

/-- The placement epoch that message n of a channel targets. -/
opaque chanEpoch (n : Nat) : BitVec 8

/-- The id of a flow in the event records of a transport core (R161): the spec gives the field and not its numbers. -/
opaque flowId (f : Nat) : BitVec 24

/-- STATUS of a fired operation whose check would trap an instruction (R316 states none). -/
opaque firedStatus : BitVec 4

/-- The page number of the save area of a task that the task sequencer dispatches: no command names one (R357, R375). -/
opaque saveArea (trid : Nat) : BitVec 40
/-- Whether an escalated trap of such a task leaves its buffers on their core (R375). -/
opaque saveKeep (trid : Nat) : Bool

/-- The pipe-store entry that the work distributor gives a pipe of a gang (R113). -/
opaque pipeEntry (gang pipe : Nat) : BitVec 8

/-- The buffer address of the region that the work distributor gives a pipe of a gang (R113). -/
opaque pipeBase (gang pipe : Nat) : BitVec 64

/-- Whether the host link trains with CXL at the n-th reset (R384, R410). -/
opaque linkCxl (n : Nat) : Bool

/-- Whether a die's mailbox ring is full for the n-th record that may be lost (R401): no file gives the size of the ring or the pace of
the firmware that drains it. -/
opaque mailFull (n : Nat) : Bool

end Sys2Proof.Config
end

