-- ==== Sys2Proof/Machine/Float.lean ====
section
/-! DEFINITION. Exact numbers and rounding: floating-point layouts, special values, the rounding modes (R20 to R35), and
the exact values of the transcendental instructions (R272). Every comparison is decided on exact numbers (R34). -/

namespace Sys2Proof.Machine

/-! ## Format codes (Table 02-1) -/

/-- Width in bits of a format code (Table 02-1). -/
def fmtWidth : Nat → Nat
  | 0 => 32 | 1 => 16 | 2 => 16 | 3 => 8 | 4 => 8 | 5 => 4 | 6 => 8 | 7 => 8 | 8 => 16 | 9 => 32
  | 10 => 32 | 11 => 32 | 12 => 16 | 13 => 8 | _ => 32

/-- The six binary floating-point formats (R20). -/
def isFloat (f : Nat) : Bool := f ≤ 5

/-- The four integer formats (R25). -/
def isInt (f : Nat) : Bool := 6 ≤ f && f ≤ 9

/-- Exponent width, mantissa width and bias (Table 02-2). -/
def fpParams : Nat → Nat × Nat × Nat
  | 0 => (8, 23, 127) | 1 => (8, 7, 127) | 2 => (5, 10, 15) | 3 => (5, 2, 15) | 4 => (4, 3, 7) | _ => (2, 1, 1)

/-- Mantissa width. -/
def mantW (f : Nat) : Nat := (fpParams f).2.1

/-- Exponent of the least significant bit of a subnormal: 1 − b − w. -/
def gridMin (f : Nat) : Int := 1 - ((fpParams f).2.2 : Int) - (mantW f : Int)

/-- Largest finite value of a format as mantissa and exponent (Table 02-2). -/
def maxFinite : Nat → Nat × Int
  | 0 => (2 ^ 24 - 1, 104) | 1 => (255, 120) | 2 => (2047, 5) | 3 => (7, 13) | 4 => (7, 6) | _ => (3, 1)

/-- The canonical NaN of a format; +0 for E2M1, which has none (Table 02-3, R33). -/
def canonNaN : Nat → Nat
  | 0 => 0x7FC00000 | 1 => 0x7FC0 | 2 => 0x7E00 | 3 => 0x7E | 4 => 0x7F | 13 => 0xFF | _ => 0

/-- An infinity of a format: NaN for E4M3 and the largest finite value for E2M1 (inf_out of R33). -/
def infBits (f : Nat) (neg : Bool) : Nat :=
  let s := if neg then 2 ^ (fmtWidth f - 1) else 0
  match f with
  | 0 => s + 0x7F800000 | 1 => s + 0x7F80 | 2 => s + 0x7C00 | 3 => s + 0x7C | 4 => 0x7F | _ => s + 7

/-- Encoding of the largest finite value with a sign. -/
def maxBits (f : Nat) (neg : Bool) : Nat :=
  let s := if neg then 2 ^ (fmtWidth f - 1) else 0
  match f with
  | 0 => s + 0x7F7FFFFF | 1 => s + 0x7F7F | 2 => s + 0x7BFF | 3 => s + 0x7B | 4 => s + 0x7E | _ => s + 7

/-! ## Numbers read from encodings (R21, R22, R26) -/

/-- A number: NaN, an infinity, or (−1)^neg · m · 2^e; m = 0 is a signed zero. -/
inductive Num where
  | nan
  | inf (neg : Bool)
  | fin (neg : Bool) (m : Nat) (e : Int)
  deriving DecidableEq, Repr

/-- The value of a floating-point encoding (R21, Table 02-3). -/
def decodeFloat (f bits : Nat) : Num :=
  let (ew, mw, b) := fpParams f
  let neg := (bits >>> (ew + mw)) % 2 == 1
  let e := (bits >>> mw) % 2 ^ ew
  let m := bits % 2 ^ mw
  let top := 2 ^ ew - 1
  if f ≤ 3 && e == top then (if m == 0 then .inf neg else .nan)
  else if f == 4 && e == top && m == 7 then .nan
  else if e == 0 then .fin neg m (gridMin f)
  else .fin neg (2 ^ mw + m) ((e : Int) - (b : Int) - (mw : Int))

/-- A signed integer as a number. -/
def Num.ofInt (i : Int) : Num := .fin (decide (i < 0)) i.natAbs 0

/-- Bits n−1..0 as signed (R9). -/
def sextNat (v n : Nat) : Int :=
  let u := v % 2 ^ n
  if n ≠ 0 ∧ 2 ^ (n - 1) ≤ u then (u : Int) - (2 : Int) ^ n else (u : Int)

/-- The low n bits of an exact integer (R8). -/
def intBits (i : Int) (n : Nat) : Nat := (i % (2 : Int) ^ n).toNat

/-- The value of an E8M0 scale (R26). -/
def decodeScale (b : Nat) : Num := if b = 255 then .nan else .fin false 1 ((b : Int) - 127)

/-- The value of an element of formats 0 to 9 and 13 (R21, R25, R26). -/
def elemValue (f bits : Nat) : Num :=
  if isFloat f then decodeFloat f bits
  else if f = 13 then decodeScale (bits % 256)
  else if f = 7 then Num.ofInt (bits % 256 : Nat)
  else Num.ofInt (sextNat bits (fmtWidth f))

/-! ## Exact arithmetic on numbers -/

/-- The product (R268: the sign of a zero product is the exclusive OR of the signs; ∞·0 is NaN). -/
def Num.mul : Num → Num → Num
  | .nan, _ => .nan
  | _, .nan => .nan
  | .inf s, .inf t => .inf (s != t)
  | .inf s, .fin t m _ => if m = 0 then .nan else .inf (s != t)
  | .fin s m _, .inf t => if m = 0 then .nan else .inf (s != t)
  | .fin s m e, .fin t n f => .fin (s != t) (m * n) (e + f)

/-- A finite number over 2^q, for q at most its exponent. -/
def scaled (neg : Bool) (m : Nat) (e q : Int) : Int :=
  let v : Int := (m : Int) * (2 : Int) ^ (e - q).toNat
  if neg then -v else v

/-- The exact sum. `zneg` is the sign of a zero sum of operands of opposite signs: true in RDN (R30). -/
def Num.add (zneg : Bool) : Num → Num → Num
  | .nan, _ => .nan
  | _, .nan => .nan
  | .inf s, .inf t => if s = t then .inf s else .nan
  | .inf s, .fin _ _ _ => .inf s
  | .fin _ _ _, .inf t => .inf t
  | .fin s m e, .fin t n f =>
    let q := if e ≤ f then e else f
    let v := scaled s m e q + scaled t n f q
    if v = 0 then .fin (if s = t then s else zneg) 0 0
    else .fin (decide (v < 0)) v.natAbs q

/-- The negation. -/
def Num.neg : Num → Num
  | .nan => .nan
  | .inf s => .inf (!s)
  | .fin s m e => .fin (!s) m e

/-- The magnitude. -/
def Num.abs : Num → Num
  | .nan => .nan
  | .inf _ => .inf false
  | .fin _ m e => .fin false m e

/-- Multiplication by 2^k, exact. -/
def Num.shift (k : Int) : Num → Num
  | .fin s m e => .fin s m (e + k)
  | n => n

/-- Order of m·2^e against n·2^f. -/
def cmpDy (m : Nat) (e : Int) (n : Nat) (f : Int) : Ordering :=
  if e ≤ f then compare m (n * 2 ^ (f - e).toNat) else compare (m * 2 ^ (e - f).toNat) n

/-- Order of two numbers that are not NaN. +0 equals −0. -/
def Num.cmp : Num → Num → Ordering
  | .inf s, .inf t => compare (if s then (0 : Nat) else 2) (if t then 0 else 2)
  | .inf s, _ => if s then .lt else .gt
  | _, .inf t => if t then .gt else .lt
  | .fin s m e, .fin t n f =>
    let q := if e ≤ f then e else f
    compare (scaled s m e q) (scaled t n f q)
  | _, _ => .eq

/-- Whether a number is a zero. -/
def Num.isZero : Num → Bool
  | .fin _ m _ => m == 0
  | _ => false

/-! ## Exact reals, given by comparison with dyadic numbers -/

/-- A positive real x: ⌊log₂ x⌋, and the order of x against any n·2^e. -/
structure Mag where
  lg  : Int
  cmp : Nat → Int → Ordering

/-- An exact real result: special, zero with a sign, or a signed positive real. -/
inductive XR where
  | nan
  | inf (neg : Bool)
  | zero (neg : Bool)
  | mag (neg : Bool) (m : Mag)

/-- The positive rational (a/b)·2^e. -/
def Mag.rat (a b : Nat) (e : Int) : Mag :=
  let l : Int := (Nat.log2 a : Int) - (Nat.log2 b : Int)
  let ge := cmpDy a 0 b l != .lt
  { lg := (if ge then l else l - 1) + e
    cmp := fun n f => cmpDy a e (n * b) f }

/-- The positive square root of (a/b)·2^e. -/
def Mag.sqrtRat (a b : Nat) (e : Int) : Mag :=
  { lg := (Mag.rat a b e).lg / 2
    cmp := fun n f => cmpDy a e (n * n * b) (2 * f) }

/-- A number as an exact real. -/
def Num.toXR : Num → XR
  | .nan => .nan
  | .inf s => .inf s
  | .fin s m e => if m = 0 then .zero s else .mag s (Mag.rat m 1 e)

/-! ## Rounding (R29 to R35) -/

/-- Rounding modes (Table 02-5). -/
inductive RM where
  | rne | rtz | rup | rdn | sr
  deriving DecidableEq, Repr

/-- The mode of a 3-bit code; codes 5 to 7 are refused before any use (R29). -/
def RM.ofCode : Nat → RM
  | 1 => .rtz | 2 => .rup | 3 => .rdn | 4 => .sr | _ => .rne

/-- mix64 (R193). -/
def mix64 (key idx : W64) : W64 :=
  let x := key + (idx + 1) * 0x9E3779B97F4A7C15#64
  let x := x ^^^ (x >>> 32)
  let x := x + (x <<< 24)
  let x := x ^^^ (x >>> 28)
  let x := x + (x <<< 12)
  x ^^^ (x >>> 32)

/-- The largest k below 2^n with k·2^q ≤ x, by its bits from the top. -/
def searchMant (x : Mag) (q : Int) : Nat → Nat → Nat
  | 0, acc => acc
  | n + 1, acc =>
    let t := acc + 2 ^ n
    searchMant x q n (if x.cmp t q == .lt then acc else t)

/-- Whether the magnitude k·2^q ≤ x < (k+1)·2^q goes up to k + 1 under a mode. `w` is the 24-bit draw of SR (R33). -/
def goesUp (rm : RM) (neg : Bool) (x : Mag) (k : Nat) (q : Int) (w : Nat) : Bool :=
  if x.cmp k q == .eq then false
  else match rm with
  | .rne => match x.cmp (2 * k + 1) (q - 1) with
    | .gt => true
    | .eq => k % 2 == 1
    | .lt => false
  | .rtz => false
  | .rup => !neg
  | .rdn => neg
  | .sr =>
    if neg then x.cmp ((k + 1) * 2 ^ 24 - w) (q - 24) != .lt
    else x.cmp (k * 2 ^ 24 + w) (q - 24) == .gt

/-- The encoding of (−1)^neg·k·2^q, with k·2^q on the grid of f and not above its largest finite value. -/
def encodeGrid (f : Nat) (neg : Bool) (k : Nat) (q : Int) : Nat :=
  let (ew, mw, b) := fpParams f
  let s := if neg then 2 ^ (ew + mw) else 0
  let (k, q) := if k = 2 ^ (mw + 1) then (2 ^ mw, q + 1) else (k, q)
  if k < 2 ^ mw then s + k
  else s + (q + (mw : Int) + (b : Int)).toNat * 2 ^ mw + (k - 2 ^ mw)

/-- Whether an overflow of this sign is rounded away from zero (R31). -/
def overflowAway (rm : RM) (neg : Bool) : Bool :=
  match rm with
  | .rne => true | .sr => true | .rtz => false | .rup => !neg | .rdn => neg

/-- Overflow results (Table 02-6). -/
def overflowBits (f : Nat) (rm : RM) (neg : Bool) : Nat :=
  if overflowAway rm neg then infBits f neg else maxBits f neg

/-- A positive real rounded to a floating-point format (round_rm of R33, overflow of R31). -/
def roundMag (f : Nat) (rm : RM) (w : Nat) (neg : Bool) (x : Mag) : Nat :=
  let mw := mantW f
  if 200 < x.lg then overflowBits f rm neg else
  let q := if x.lg - mw ≤ gridMin f then gridMin f else x.lg - (mw : Int)
  let k := searchMant x q (mw + 1) 0
  let (mm, me) := maxFinite f
  let big := x.cmp mm me == .gt
  let rm' := if rm == .sr && big then .rne else rm
  let k' := if goesUp rm' neg x k q w then k + 1 else k
  if cmpDy k' q mm me == .gt then overflowBits f rm neg else encodeGrid f neg k' q

/-- The 24-bit draw of SR (R33). -/
def srDraw (key : W64) (idx : Nat) : Nat := (mix64 key (BitVec.ofNat 64 idx)).toNat >>> 40

/-- The range of an integer format (R25). -/
def intRange : Nat → Int × Int
  | 6 => (-128, 127) | 7 => (0, 255) | 8 => (-32768, 32767) | _ => (-2147483648, 2147483647)

/-- Clamp to a range. -/
def clampInt (r : Int × Int) (i : Int) : Int := if i < r.1 then r.1 else if r.2 < i then r.2 else i

/-- A real rounded to an integer under a mode, clamped to a range (round_int of R33). -/
def roundInt (r : Int × Int) (rm : RM) (w : Nat) : XR → Int
  | .nan => 0
  | .zero _ => clampInt r 0
  | .inf neg => if neg then r.1 else r.2
  | .mag neg x =>
    if x.lg ≥ 64 then (if neg then r.1 else r.2)
    else
      let k := searchMant x 0 64 0
      let k' := if goesUp rm neg x k 0 w then k + 1 else k
      clampInt r (if neg then -(k' : Int) else (k' : Int))

/-- sat_clamp for a floating-point target (R32). -/
def satClamp (f : Nat) : XR → XR
  | .inf neg => .mag neg (Mag.rat (maxFinite f).1 1 (maxFinite f).2)
  | .mag neg x =>
    if x.cmp (maxFinite f).1 (maxFinite f).2 == .gt then .mag neg (Mag.rat (maxFinite f).1 1 (maxFinite f).2)
    else .mag neg x
  | x => x

/-- round_rm to a format of codes 0 to 9, with sat_clamp first when `sat` is set (R33, R35); the bits of the result. -/
def roundTo (f : Nat) (rm : RM) (sat : Bool) (key : W64) (idx : Nat) (x : XR) : Nat :=
  let w := srDraw key idx
  if isInt f then intBits (roundInt (intRange f) rm w x) (fmtWidth f)
  else
    match (if sat then satClamp f x else x) with
    | .nan => canonNaN f
    | .inf neg => infBits f neg
    | .zero neg => if neg then 2 ^ (fmtWidth f - 1) else 0
    | .mag neg m => roundMag f rm w neg m

/-- round_ne of a number to a floating-point format (R30). -/
def roundNE (f : Nat) (x : Num) : Nat := roundTo f .rne false 0 0 x.toXR

/-- round_ne to FP32, read back as a number. -/
def roundF32 (x : Num) : Num := decodeFloat 0 (roundNE 0 x)

/-- An integer quotient v / 2^s to the nearest integer, ties to even (R44, R198). -/
def divPow2NE (v : Int) (s : Nat) : Int :=
  let fl := v / (2 : Int) ^ s
  let r := v % (2 : Int) ^ s
  let half : Int := if s = 0 then 1 else (2 : Int) ^ (s - 1)
  if r < half then fl else if half < r then fl + 1 else if fl % 2 = 0 then fl else fl + 1

/-! ## Powers of two and logarithms, exact (R46, R272) -/

/-- Order of 2^p against n^(2^t), for n ≥ 1, in exact integers. -/
def cmpPowExact (p n t : Nat) : Ordering := compare (2 ^ p) (n ^ 2 ^ t)

/-- Order of 2^p against n^(2^t) read from the binary digits of log₂ n, which repeated squaring of n / 2^⌊log₂ n⌋ gives.
`lo` and `hi` bound the current square over 2^96; `none` says that the bounds do not decide. `t` digits of p remain. -/
def cmpPowDigits (pow2 : Bool) (p : Nat) : Nat → Nat → Nat → Option Ordering
  | 0, _, _ => some (if pow2 then .eq else .lt)
  | t + 1, lo, hi =>
    let lo2 := lo * lo / 2 ^ 96
    let hi2 := hi * hi / 2 ^ 96 + 1
    let d := (p >>> t) % 2
    if 2 ^ 97 ≤ lo2 then
      if d = 0 then some .lt else cmpPowDigits pow2 p t (lo2 / 2) (hi2 / 2 + 1)
    else if hi2 < 2 ^ 97 then
      if d = 1 then some .gt else cmpPowDigits pow2 p t lo2 hi2
    else none

/-- Order of 2^p against n^(2^t), for n ≥ 1: by digits where they decide, by exact powers otherwise. -/
def cmpPow (p n t : Nat) : Ordering :=
  let l := Nat.log2 n
  match compare (p >>> t) l with
  | .eq =>
    if n = 2 ^ l then (if p % 2 ^ t = 0 then .eq else .gt)
    else
      let y := n * 2 ^ 96 / 2 ^ l
      match cmpPowDigits false (p % 2 ^ t) t y (y + 1) with
      | some o => o
      | none => cmpPowExact p n t
  | o => o

/-- The positive real 2^(p/2^t), p an integer. -/
def Mag.exp2 (p : Int) (t : Nat) : Mag :=
  { lg := p / (2 : Int) ^ t
    cmp := fun n f =>
      if n = 0 then .gt
      else
        let r : Int := p - f * (2 : Int) ^ t
        if r < 0 then .lt else cmpPow r.toNat n t }

/-- Order of |log₂(m·2^e)| against n·2^f, for m·2^e ≠ 1; `below` says m·2^e < 1. -/
def cmpLog (m : Nat) (e : Int) (below : Bool) (n : Nat) (f : Int) : Ordering :=
  let t := (-f).toNat
  let nn : Int := (n : Int) * (2 : Int) ^ f.toNat
  let et : Int := e * (2 : Int) ^ t
  if below then
    let p := -et - nn
    if p < 0 then .lt else cmpPow p.toNat m t
  else
    let p := nn - et
    if p < 0 then .gt else (cmpPow p.toNat m t).swap

/-- ⌊log₂⌋ of a real at least 2^−n and below 1, from its comparisons: −j for the least j with 2^−j ≤ x. -/
def lgBelow (cmp : Nat → Int → Ordering) : Nat → Int → Int
  | 0, j => j
  | n + 1, j => if cmp 1 j != .lt then j else lgBelow cmp n (j - 1)

/-- The magnitude of log₂(m·2^e), for m ≥ 1 and m·2^e ≠ 1. -/
def Mag.log2 (m : Nat) (e : Int) (below : Bool) : Mag :=
  let c := cmpLog m e below
  let il : Int := (Nat.log2 m : Int) + e
  let whole : Nat := if below then (-(il + (if m = 2 ^ Nat.log2 m then 0 else 1))).toNat else il.toNat
  { lg := if whole = 0 then lgBelow c 200 (-1) else (Nat.log2 whole : Int)
    cmp := c }

/-- A finite number p/2^t with t as small as its exponent gives. -/
def Num.frac : Num → Int × Nat
  | .fin s m e => (scaled s m e (if e ≤ 0 then e else 0), (-e).toNat)
  | _ => (0, 0)

/-- VEXP2: 2^a (Table 12-3). -/
def exp2XR : Num → XR
  | .nan => .nan
  | .inf neg => if neg then .zero false else .inf false
  | .fin s m e => if m = 0 then .mag false (Mag.rat 1 1 0) else
    let (p, t) := (Num.fin s m e).frac
    .mag false (Mag.exp2 p t)

/-- VLOG2: log₂ a (Table 12-3). -/
def log2XR : Num → XR
  | .nan => .nan
  | .inf neg => if neg then .nan else .inf false
  | .fin s m e =>
    if m = 0 then .inf true
    else if s then .nan
    else match cmpDy m e 1 0 with
    | .eq => .zero false
    | .lt => .mag true (Mag.log2 m e true)
    | .gt => .mag false (Mag.log2 m e false)

/-- VRCP: 1/a (Table 12-3). -/
def rcpXR : Num → XR
  | .nan => .nan
  | .inf neg => .zero neg
  | .fin s m e => if m = 0 then .inf s else .mag s (Mag.rat 1 m (-e))

/-- VRSQ: 1/√a (Table 12-3). -/
def rsqXR : Num → XR
  | .nan => .nan
  | .inf neg => if neg then .nan else .zero false
  | .fin s m e =>
    if m = 0 then .inf s else if s then .nan else .mag false (Mag.sqrtRat 1 m (-e))

end Sys2Proof.Machine
end

