-- ==== Sys2Proof/Machine/Formats.lean ====
section
/-! DEFINITION. Elements of registers, conversions between formats, shared exponents, RNS3, stochastic pairs, the
counter-based samples and the accumulation step of a press (R26 to R46, R193 to R196, R264, R286). -/

namespace Sys2Proof.Machine

/-! ## Elements of a 2,048-bit register (R264) -/

/-- Element i of width w. -/
def elem (v : VReg) (w i : Nat) : Nat := (v.toNat >>> (w * i)) % 2 ^ w

/-- The sum over i below n of the low w bits of f i at place w·i. -/
def packElems (w : Nat) (f : Nat → Nat) : Nat → Nat
  | 0 => 0
  | n + 1 => packElems w f n + (f n % 2 ^ w) * 2 ^ (w * n)

/-- A register from its elements. -/
def vOfElems (w n : Nat) (f : Nat → Nat) : VReg := BitVec.ofNat 2048 (packElems w f n)

/-- Elements of width w in a register (Table 12-1). -/
def elemCount (w : Nat) : Nat := 2048 / w

/-- Whether the element of width w at i is active under mask k (R265). -/
def active (k : W64) (w i : Nat) : Bool := k.getLsbD (i * w / 32)

/-- The bits of the register that belong to active elements (R265). -/
def activeMask (k : W64) : VReg := vOfElems 32 64 fun g => if k.getLsbD g then 2 ^ 32 - 1 else 0

/-! ## Conversions (R35) -/

/-- The exact value of an element converted to a target format of codes 0 to 9. -/
def convert (sf df : Nat) (rm : RM) (sat : Bool) (key : W64) (idx bits : Nat) : Nat :=
  roundTo df rm sat key idx (elemValue sf bits).toXR

/-- ⌊log₂⌋ of a finite nonzero number. -/
def Num.lg : Num → Int
  | .fin _ m e => (Nat.log2 m : Int) + e
  | _ => 0

/-- The greatest magnitude of a list; +0 for none. -/
def maxAbs (xs : List Num) : Num :=
  xs.foldl (fun a x => if Num.cmp a x.abs == .lt then x.abs else a) (.fin false 0 0)

/-- Whether a number is NaN or infinite. -/
def Num.special : Num → Bool
  | .fin _ _ _ => false
  | _ => true

/-- emax of R286: 8 for E4M3, 15 for E5M2, 2 for E2M1. -/
def emaxOf : Nat → Int
  | 4 => 8 | 3 => 15 | _ => 2

/-- The shared exponent of a block (R286). -/
def sharedExp (xs : List Num) (efmt : Nat) : Nat :=
  if xs.any Num.special then 255
  else
    let a := maxAbs xs
    if a.isZero then 0
    else (clampInt (0, 254) (a.lg - emaxOf efmt + 127)).toNat

/-- x·2^(s−127), or x / 2^(s−127) with `inv`; NaN for the scale 0xFF (R28, R285). -/
def applyScale (inv : Bool) (s : Nat) (x : Num) : Num :=
  if s = 255 then .nan else x.shift (if inv then 127 - (s : Int) else (s : Int) - 127)

/-! ## RNS3 (R40 to R44) -/

/-- The three moduli. -/
def rnsMod : Nat → Nat
  | 0 => 251 | 1 => 241 | _ => 239

/-- The residue of channel i, reduced (R40). -/
def rnsChan (c i : Nat) : Nat := (c >>> (8 * i)) % 256 % rnsMod i

/-- A canonical container from channel values, reduced (R40). -/
def rnsMk (f : Nat → Nat) : Nat := f 0 % 251 + f 1 % 241 * 256 + f 2 % 239 * 65536

/-- A sum, difference or product per channel (R41). -/
def rnsAdd (a b : Nat) : Nat := rnsMk fun i => rnsChan a i + rnsChan b i
/-- The difference per channel (R41). -/
def rnsSub (a b : Nat) : Nat := rnsMk fun i => rnsChan a i + (rnsMod i - rnsChan b i)
/-- The product per channel (R41). -/
def rnsMul (a b : Nat) : Nat := rnsMk fun i => rnsChan a i * rnsChan b i

/-- RNSENC (R42). -/
def rnsEnc (v : Int) : Nat := rnsMk fun i => (v % (rnsMod i : Int)).toNat

/-- crt_decode (R43). -/
def crtDecode (c : Nat) : Int :=
  let x := rnsChan c 0 * 228 % 251 * 57599 + rnsChan c 1 * 12 % 241 * 59989 + rnsChan c 2 * 10 % 239 * 60491
  let x := x % 14457349
  if 7228674 < x then (x : Int) - 14457349 else (x : Int)

/-- RNSDEC with a shift (R44). -/
def rnsDec (c s : Nat) : Int := divPow2NE (crtDecode c) s

/-! ## Samples and stochastic pairs (R45, R46, R193 to R196) -/

/-- The number of 1 bits among the low n. -/
def popcount (x : Nat) : Nat → Nat
  | 0 => 0
  | n + 1 => popcount x n + (x >>> n) % 2

/-- gauss_z (R194). -/
def gaussZ (key idx : W64) : Num :=
  let p : Int := (popcount (mix64 key idx).toNat 64 : Int) - 32
  .fin (decide (p < 0)) p.natAbs (-2)

/-- A stochastic pair in its parts: mean, raw log-deviation, n and log₂ q (R45). -/
structure Pair where
  mu  : Num
  raw : Nat
  n   : Nat
  q   : Nat

/-- The pair of an SW32 word or an SW16 half-word (R45). -/
def pairOf (sw32 : Bool) (w : Nat) : Pair :=
  if sw32 then { mu := decodeFloat 1 (w / 65536 % 65536), raw := w % 65536, n := 16, q := 8 }
  else { mu := decodeFloat 4 (w / 256 % 256), raw := w % 256, n := 8, q := 3 }

/-- Whether the raw value means σ = 0 (R45). -/
def Pair.noSigma (p : Pair) : Bool := p.raw == 2 ^ (p.n - 1)

/-- σ as perturb builds it (R46). -/
def Pair.sigma (p : Pair) : Num :=
  let l := sextNat p.raw p.n
  let i := l / (2 : Int) ^ p.q
  let f := l % (2 : Int) ^ p.q
  let g := decodeFloat 0 (roundTo 0 .rne false 0 0 (.mag false (Mag.exp2 f p.q)))
  roundF32 (g.shift i)

/-- perturb (R46): the encoding of w in BF16 or E4M3, and its value. -/
def Pair.perturb (sw32 : Bool) (p : Pair) (z : Num) : Num :=
  if p.noSigma then p.mu
  else
    let w := roundF32 (Num.add false p.mu (Num.mul p.sigma z))
    if sw32 then decodeFloat 1 (roundNE 1 w)
    else decodeFloat 4 (roundTo 4 .rne true 0 0 w.toXR)

/-! ## The accumulation of a press (R36 to R39) -/

/-- One floating-point step: the exact sum of acc and the products, rounded once to FP32 (R36, R37). -/
def accStepF (acc : Nat) (ps : List (Num × Num)) : Nat :=
  roundNE 0 (ps.foldl (fun s p => Num.add false s (Num.mul p.1 p.2)) (decodeFloat 0 acc))

/-- One integer step, modulo 2³² (R38). -/
def accStepI (acc : Nat) (ps : List (Int × Int)) : Nat :=
  intBits (ps.foldl (fun s p => s + p.1 * p.2) (acc : Int)) 32

/-- One RNS3 step (R39). -/
def accStepR (acc a b : Nat) : Nat := rnsAdd acc (rnsMul a b)

/-! ## Widening to a sum's node arithmetic (Table 12-4) -/

/-- round_ne(x + y, FP32) with the specials of R37. -/
def addF32 (x y : Nat) : Nat := roundNE 0 (Num.add false (decodeFloat 0 x) (decodeFloat 0 y))

/-- Maximum and minimum by value (R271): NaN propagates; of +0 and −0 the maximum is +0, the minimum −0. -/
def maxNum (x y : Num) : Num :=
  match x, y with
  | .nan, _ => .nan
  | _, .nan => .nan
  | x, y => match Num.cmp x y with
    | .lt => y
    | .gt => x
    | .eq => match x with
      | .fin true 0 _ => y
      | _ => x

/-- Minimum by value (R271). -/
def minNum (x y : Num) : Num := (maxNum x.neg y.neg).neg

end Sys2Proof.Machine
end

