-- ==== Sys2Proof/Syntax.lean ====
section
/-! DEFINITION. The steps of the machine: one constructor of Instr per row of the table of operations and events. -/

namespace Sys2Proof

/-- The scalar lane of a slot, which is also the register file it works on (R240). -/
inductive SFile where
  | x | y
  deriving DecidableEq, Repr

/-- Operand b of a scalar instruction: a register of the lane's file, or the 12-bit immediate of the I-form (R240). -/
inductive SOpd where
  | reg (b : R5)
  | imm (n : BitVec 12)
  deriving DecidableEq, Repr

/-- The lane that a CPY is issued in, which owns the destination file (R218). -/
inductive CpyLane where
  | sx | sy | va | fm | ls
  deriving DecidableEq, Repr

/-- The extension of a wide twin of VA or FM (Table 10-6). -/
structure Rnd where
  rm   : BitVec 3
  sat  : Bool
  skey : BitVec 24
  deriving DecidableEq, Repr

/-- The fields of a VA slot (Table 10-5). -/
structure VOpd where
  vd  : R5
  va  : R5
  vb  : R5
  k   : BitVec 3
  fmt : BitVec 4
  deriving DecidableEq, Repr

/-- The fields of an FM slot (Table 10-5). -/
structure FOpd where
  vd  : R5
  va  : R5
  vb  : R5
  sub : BitVec 3
  fmt : BitVec 4
  deriving DecidableEq, Repr

/-- Size and extension of a scalar load (R230). -/
inductive LdSz where
  | s8 | z8 | s16 | z16 | s32 | z32 | d64
  deriving DecidableEq, Repr

/-- Size of a scalar store (R230). -/
inductive StSz where
  | b8 | b16 | b32 | b64
  deriving DecidableEq, Repr

/-- The LM sub-form (Table 10-7). -/
structure LmOpd where
  d     : R5
  a     : BitVec 4
  scope : BitVec 3
  ord   : BitVec 2
  disp  : BitVec 8
  deriving DecidableEq, Repr

/-- The LA sub-form of the atomics (Table 10-7). -/
structure LaOpd where
  d     : R5
  a     : BitVec 4
  scope : BitVec 3
  ord   : BitVec 2
  s     : R5
  y     : Bool
  sz    : BitVec 2
  deriving DecidableEq, Repr

/-- The LB sub-form (Table 10-7): `x` is the F bit. -/
structure LbOpd where
  d     : R5
  a     : BitVec 4
  space : BitVec 2
  x     : Bool
  disp  : BitVec 10
  deriving DecidableEq, Repr

/-- The slot fields of MMA and MMAG (Table 08-2). -/
structure MmaOpd where
  p   : Bool
  z   : Bool
  w   : Bool
  a   : Bool
  set : BitVec 4
  vc  : BitVec 2
  ef  : Bool
  deriving DecidableEq, Repr

/-- The slot fields of MCVT (Table 08-5). -/
structure McvtOpd where
  dfmt  : BitVec 4
  set   : BitVec 4
  rm    : BitVec 3
  sat   : Bool
  sh    : BitVec 5
  skind : BitVec 2
  dmx   : Bool
  ef    : Bool
  dst   : Bool
  deriving DecidableEq, Repr

/-- The count of a LOOP slot: immediate (I = 1) or an x register (I = 0) (Table 10-8). -/
inductive LoopCnt where
  | imm (n : BitVec 10)
  | reg (r : R5)
  deriving DecidableEq, Repr

/-- A packet as it arrives from a peer: the job identifier of its semantic header (R464), its source device, its
flow and packet sequence number (R128, R149), the four words of the placement extension (Table 06-2), its payload,
whether it carries a feature the device does not support, whether a switch has trimmed it (R115), and for a global access
whether it is a synchronisation access (R339) and whether its answer is discarded (R150; log 49). `resp` says that it came as the
answer to an access of this device, whose flows are numbered apart (R149). `sem` holds what its semantic
header says of a packet that carries no chunk, or of a message's payload: the sender's operation and an offset (log 26). -/
structure Packet where
  job     : Nat
  src     : Nat
  flow    : Nat
  psn     : Nat
  w0      : W64
  w1      : W64
  w2      : W64
  w3      : W64
  payload : List Byte
  unsupp  : Bool
  trim    : Bool
  sync    : Bool
  noret   : Bool
  resp    : Bool
  sem     : List W64
  deriving DecidableEq, Repr

/-- A message header on its ROD flow (R142): its packet, match tag and payload length. The packet's payload holds the message's
where it is at most 16 KiB and comes with its header (R143). `rkey` names the sender's operation. -/
structure MsgHdr where
  pkt     : Packet
  tag     : W64
  len     : Nat
  rkey    : Nat
  deriving DecidableEq, Repr

/-- What an acknowledgement says of one packet: its sequence number, the bytes accepted of it, and whether it was marked for
congestion (R135, R144, R162). -/
structure PktAck where
  psn   : Nat
  bytes : Nat
  mark  : Bool
  deriving DecidableEq, Repr

/-- A named device register of the frames of R47; the last four are written by the work distributor alone and have no address in
the frames: PTSIZE, the job identifier and the channel words of a communication context (R120, R137, R464; log 8), and the group table
of a die (R358). -/
inductive DevReg where
  | caskctl (clu : Nat) | caskmiss (clu : Nat)
  | tcctl (die : Nat) | tcstat (die : Nat) | tccnt (die : Nat) | tcwdog (die : Nat)
  | txdstat (die : Nat) | txcnt0 (die : Nat) | txcnt1 (die : Nat) | txcnt2 (die : Nat)
  | trbase (die : Nat) | trctl (die : Nat) | trhead (die : Nat) | trtail (die : Nat)
  | dcnt (die : Nat) (kind : Nat)
  | hlstat | hlctl | biasbase | biascnt | orphbase | orphcnt
  | vicfg (vi : Nat) (word : Nat)
  | errcnt (die : Nat) (unit : Nat) | errlost (die : Nat)
  | fwctl | fwstat | fwfloor0 | fwfloor1 | fwfloorset
  | pwrctl | telpwr | teltemp | telthr
  | tcimem (die : Nat) (word : Nat) | tcsmem (die : Nat) (dword : Nat)
  | ptsize (asid : Nat) | jobId (asid : Nat) | chanWord (asid : Nat) (word : Nat)
  | groupAddr (die : Nat) (g : Nat)
  deriving DecidableEq, Repr

/-- Where a dispatch command has a task saved (R368), whether its buffers stay on their core then (R367, R375), and the interface on
whose behalf a launch of the work distributor's own is made (R395). -/
structure SaveTo where
  addr   : W64
  keep   : Bool
  behalf : Option Nat
  deriving DecidableEq, Repr

/-- What the page service does in a step of its work on a page (R396): it writes the words of a leaf, writes back a frame of 4 KiB,
copies such a frame, or reports the page mapped. -/
inductive PageSvc where
  | mapped (va : W64)
  | leaf (pa : Nat) (w : W64)
  | writeBack (frame : Nat)
  | copy (src dst : Nat)
  deriving DecidableEq, Repr

/-- The codes of a negative acknowledgement (R120, R124, R136), that of a trimmed packet among them (R115). -/
inductive NackCode where
  | retry | noTarget | notDurable | trimmed
  deriving DecidableEq, Repr

/-- What the host does over the link (R384 to R386, R388, R389): reads and writes of device memory over CXL.mem, the programming of
the HDM decoder, accesses of a virtual interface's BAR0 and of the physical function's BAR2 at an offset, and a request that needs an
unsupported feature. -/
inductive HostReq where
  | read (len : Nat)
  | write (bytes : List Byte)
  | setHdmbase
  | bar0Read (vi len : Nat)
  | bar0Write (vi : Nat) (w : W64)
  | bar2Read (len : Nat)
  | bar2Write (bytes : List Byte)
  | unsupported
  deriving DecidableEq, Repr

/-- What a host completion or an access of the device to the host ends with (R384, R398). -/
inductive HostCpl where
  | ok | failed
  deriving DecidableEq, Repr

/-- A snoop of the host on a host-homed line (R390): of a read, of an invalidation, or of the host's own store of bytes from an offset
in the line. -/
inductive Snoop where
  | data | inv
  | store (off : Nat) (bytes : List Byte)
  deriving DecidableEq, Repr

/-- A protected unit of Table 18-1 in which an error is found, with the place it is found at. -/
inductive EccSite where
  | regfile (core ctx : Nat)
  | buffer (core ctx space off : Nat)
  | l1d (core line : Nat)
  | l1i (core line : Nat)
  | ibuf (core ctx va : Nat)
  | cluster (clu line : Nat)
  | cask (clu line : Nat)
  | l2 (line : Nat)
  | hbm (pa : Nat)
  | press (core press ctx : Nat)
  | tlb (core : Nat) (asid : Nat) (vpage : Nat)
  | dieTlb (die asid vpage : Nat)
  | unitTlb (die asid vpage : Nat)
  | walk (die key : Nat)
  | extent (core ctx n : Nat)
  | engine (core ctx : Nat)
  | tcmem (die : Nat) (state : Bool)
  deriving DecidableEq, Repr

/-- One step of the machine: a slot of a bundle, an instruction of a transport core, or an event of the machine, of its
engines, or of the firmware and host that drive it. Constructors stand in the order
of the table of operations, the inputs that the model never builds last. -/
inductive Instr where
  -- scalar lanes (R240 to R248)
  | add (f : SFile) (d a : R5) (b : SOpd)
  | sub (f : SFile) (d a b : R5)
  | mul (f : SFile) (d a : R5) (b : SOpd)
  | mulh (f : SFile) (d a b : R5)
  | mulhu (f : SFile) (d a b : R5)
  | div (f : SFile) (d a b : R5)
  | divu (f : SFile) (d a b : R5)
  | rem (f : SFile) (d a b : R5)
  | and (f : SFile) (d a : R5) (b : SOpd)
  | or (f : SFile) (d a : R5) (b : SOpd)
  | xor (f : SFile) (d a : R5) (b : SOpd)
  | shl (f : SFile) (d a : R5) (b : SOpd)
  | shr (f : SFile) (d a : R5) (b : SOpd)
  | sar (f : SFile) (d a : R5) (b : SOpd)
  | min (f : SFile) (d a : R5) (b : SOpd)
  | max (f : SFile) (d a : R5) (b : SOpd)
  | minu (f : SFile) (d a : R5) (b : SOpd)
  | maxu (f : SFile) (d a : R5) (b : SOpd)
  | seq (f : SFile) (d a : R5) (b : SOpd)
  | slt (f : SFile) (d a : R5) (b : SOpd)
  | sltu (f : SFile) (d a : R5) (b : SOpd)
  | sel (f : SFile) (d a b c : R5)
  | clz (f : SFile) (d a : R5)
  | popc (f : SFile) (d a : R5)
  | bfx (f : SFile) (d a : R5) (pos len1 : BitVec 6)
  | bfi (f : SFile) (d a : R5) (pos len1 : BitVec 6)
  | addsh (f : SFile) (d a b : R5) (sh : BitVec 6)
  | li (f : SFile) (d : R5) (h : Bool) (hi : BitVec 16) (lo : BitVec 31)
  | mfs (f : SFile) (d : R5) (sel : BitVec 12)
  | mts (f : SFile) (a : R5) (sel : BitVec 12)
  | cpy (l : CpyLane) (d : R5) (sf : BitVec 3) (s piece : R5) (dk : Bool)
  -- VA lane (R270 to R281)
  | vadd (o : VOpd) (w : Option Rnd)
  | vsub (o : VOpd) (w : Option Rnd)
  | vmul (o : VOpd) (w : Option Rnd)
  | vfma (o : VOpd) (w : Option Rnd)
  | vfms (o : VOpd) (w : Option Rnd)
  | vexp2 (o : VOpd) (w : Option Rnd)
  | vlog2 (o : VOpd) (w : Option Rnd)
  | vrcp (o : VOpd) (w : Option Rnd)
  | vrsq (o : VOpd) (w : Option Rnd)
  | vcvt (o : VOpd) (w : Option Rnd)
  | vreds (o : VOpd) (w : Option Rnd)
  | vscan (o : VOpd) (w : Option Rnd)
  | vmax (o : VOpd)
  | vmin (o : VOpd)
  | vabs (o : VOpd)
  | vneg (o : VOpd)
  | vcmp (o : VOpd)
  | vsel (o : VOpd)
  | vand (o : VOpd)
  | vor (o : VOpd)
  | vxor (o : VOpd)
  | vnot (o : VOpd)
  | vshl (o : VOpd)
  | vshr (o : VOpd)
  | vsar (o : VOpd)
  | vredm (o : VOpd)
  | vbcast (o : VOpd)
  | viota (o : VOpd)
  | vgauss (o : VOpd)
  | vrand (o : VOpd)
  | kand (kd ka kb : BitVec 3)
  | kor (kd ka kb : BitVec 3)
  | kxor (kd ka kb : BitVec 3)
  | knot (kd ka : BitVec 3)
  | kpop (kd ka : BitVec 3)
  -- FM lane (R282 to R289)
  | pack (o : FOpd) (w : Option Rnd)
  | vscale (o : FOpd) (w : Option Rnd)
  | swjoin (o : FOpd) (w : Option Rnd)
  | unpack (o : FOpd)
  | bscale (o : FOpd)
  | perm (o : FOpd)
  | zip (o : FOpd)
  | unzip (o : FOpd)
  | xpose (o : FOpd)
  | rnsenc (o : FOpd)
  | rnsdec (o : FOpd)
  | cpye (o : FOpd)
  | swsplit (o : FOpd)
  -- LS lane (R290 to R304)
  | ld (f : SFile) (sz : LdSz) (o : LmOpd)
  | st (f : SFile) (sz : StSz) (o : LmOpd)
  | vld (d : R5) (a : BitVec 4) (k : BitVec 3) (disp : BitVec 8)
  | vst (d : R5) (a : BitVec 4) (k : BitVec 3) (disp : BitVec 8)
  | vlds (d : R5) (a : BitVec 4) (k : BitVec 3) (ix : BitVec 4) (esz : BitVec 2)
  | vsts (d : R5) (a : BitVec 4) (k : BitVec 3) (ix : BitVec 4) (esz : BitVec 2)
  | vgth (d : R5) (a : BitVec 4) (k : BitVec 3) (ix : R5) (esz : BitVec 2)
  | vsct (d : R5) (a : BitVec 4) (k : BitVec 3) (ix : R5) (esz : BitVec 2)
  | bld (o : LbOpd)
  | bst (o : LbOpd)
  | atadd (o : LaOpd)
  | atmin (o : LaOpd)
  | atmax (o : LaOpd)
  | atxch (o : LaOpd)
  | ator (o : LaOpd)
  | atand (o : LaOpd)
  | atcas (o : LaOpd)
  | atcas2 (o : LaOpd)
  | fence (scope : BitVec 3) (kind : BitVec 2)
  | cflush (d : R5) (a : BitVec 4) (scope : BitVec 3)
  | cinv (d : R5) (a : BitVec 4) (scope : BitVec 3)
  | pref (a : BitVec 4) (level : BitVec 2) (disp : BitVec 8)
  | amov (d : R5) (a : BitVec 4) (imm : BitVec 13)
  | ainc (d : R5) (a : BitVec 4) (imm : BitVec 13)
  | caskAlloc (d : R5) (a : BitVec 4) (n : BitVec 13)
  | caskFree (d : R5) (a : BitVec 4) (n : BitVec 13)
  | setkp (key : R5) (right : BitVec 2)
  -- MX lane (R305)
  | mma (o : MmaOpd)
  | mmag (o : MmaOpd)
  | mzero (set : BitVec 4) (ef : Bool)
  | mcvt (o : McvtOpd)
  -- EN lane (R306 to R326)
  | ewr (a : R5) (n : BitVec 12)
  | placementInstall (core ctx : Nat)
  | erd (d : R5) (n : BitVec 12)
  | cpyq (q : BitVec 2) (n : BitVec 3)
  | qfence (a : R5) (mask : BitVec 4) (evt : Bool)
  | rwait (a : R5) (h : BitVec 4) (n8 : BitVec 8)
  | rfree (a : R5) (h : BitVec 4) (n8 : BitVec 8)
  | radvP (a : R5) (h : BitVec 4) (n8 : BitVec 8)
  | radvC (a : R5) (h : BitVec 4) (n8 : BitVec 8)
  | waitt (a : R5)
  | txput (a : R5) (set : BitVec 4) (ne : Bool)
  | txget (a : R5) (set : BitVec 4) (ne : Bool)
  | txred (a b : R5) (set : BitVec 4) (ne : Bool)
  | txmc (a b : R5) (set : BitVec 4) (ne : Bool)
  | txflush (a b : R5) (all : Bool)
  | txflushP (a b : R5) (all : Bool)
  | rxpost (a b : R5) (set : BitVec 4) (ne : Bool)
  | chsend (a : R5) (set : BitVec 4) (ne : Bool)
  | chrecv (a : R5) (set : BitVec 4) (ne : Bool)
  | trig (a b : R5) (set : BitVec 4) (opk : BitVec 3)
  | ctradd (a : R5) (c : BitVec 3)
  | ctrsnap (a b : R5)
  | ntr
  | task (a : R5)
  | taskDone (a b : R5)
  | sync (level : BitVec 3)
  | phase (p : BitVec 4)
  | stepb (b : BitVec 8) (tag : BitVec 16)
  | stepbRp (b : BitVec 8) (tag : BitVec 16)
  | stepe (b : BitVec 8) (tag : BitVec 16)
  | digest (d a b : R5) (q : BitVec 2) (evt buf : Bool)
  | digcmp (a b : R5)
  | prof (a : R5) (n : BitVec 12)
  | evpost (c : BitVec 2) (a : R5) (tag : BitVec 12)
  -- BR lane (R250 to R263)
  | nop
  | bra (dr : Bool) (off : BitVec 21)
  | bz (dr : Bool) (f : SFile) (r : R5) (off : BitVec 15)
  | bnz (dr : Bool) (f : SFile) (r : R5) (off : BitVec 15)
  | bkall (dr : Bool) (k : BitVec 3) (off : BitVec 18)
  | bknone (dr : Bool) (k : BitVec 3) (off : BitVec 18)
  | call (dr : Bool) (off : BitVec 21)
  | ret (dr : Bool)
  | loop (c : LoopCnt) (stop : BitVec 10)
  | loopx (count : BitVec 31) (stop : BitVec 21)
  | halt
  | trap (code : BitVec 16)
  | rtt (dr : Bool)
  | brk (code : BitVec 16)
  | waitev (r : R5)
  | yield
  | prio (c : BitVec 2)
  | ifence
  -- the core's own events (R231, R233, R363 to R365, R377)
  | issueSelect (core : Nat)
  | stallSwitchCount (core : Nat)
  | priorityAging (core ctx : Nat)
  | fixedResultLand (core ctx : Nat)
  | scoreboardResultLand (core ctx i : Nat)
  | deferredTrapSuspend (core ctx : Nat)
  -- translation, the lees log and releases (R60 to R70)
  | pageWalkComplete (core asid : Nat) (va : W64)
  | releaseGo (trid : Nat)
  | shootdownComplete (die : Nat)
  -- the copy engine (R98 to R107)
  | copyTransfer (core : Nat)
  | copyEntryComplete (core ctx q : Nat)
  | qfenceComplete (core ctx q : Nat)
  -- the presses (R185 to R199, R402)
  | mmagStart (core press : Nat)
  | pressResultInPlace (core press : Nat)
  | mzeroComplete (core : Nat)
  | mcvtComplete (core : Nat)
  -- arrivals at the transport (R119 to R151, R465 to R467)
  | rxGload (die : Nat) (p : Packet)
  | rxGstore (die : Nat) (p : Packet)
  | rxGatom (die : Nat) (p : Packet)
  | rxGresp (die : Nat) (p : Packet)
  | transportOpComplete (die opid : Nat)
  -- the transport core's control (R157, R158, R162, R177)
  | tcWatchdog (die : Nat)
  | tcTimerExpiry (die t : Nat)
  -- the transport core's instructions (R165 to R178)
  | tcAdd (d a b : R5)
  | tcSub (d a b : R5)
  | tcAnd (d a b : R5)
  | tcOr (d a b : R5)
  | tcXor (d a b : R5)
  | tcShl (d a b : R5)
  | tcShr (d a b : R5)
  | tcSltu (d a b : R5)
  | tcAddi (d a : R5) (imm : BitVec 16)
  | tcAndi (d a : R5) (imm : BitVec 16)
  | tcShli (d a : R5) (sh : BitVec 6)
  | tcShri (d a : R5) (sh : BitVec 6)
  | tcLi (d : R5) (imm : BitVec 16)
  | tcLis (d : R5) (imm : BitVec 16)
  | tcLds (d a : R5) (imm : BitVec 16)
  | tcSts (d a : R5) (imm : BitVec 16)
  | tcLde (d : R5) (imm : BitVec 16)
  | tcLdp (d : R5) (imm : BitVec 16)
  | tcStp (d : R5) (imm : BitVec 16)
  | tcBeq (a b : R5) (off : BitVec 16)
  | tcBne (a b : R5) (off : BitVec 16)
  | tcBltu (a b : R5) (off : BitVec 16)
  | tcJmp (off : BitVec 26)
  | tcCall (off : BitVec 26)
  | tcRet
  | tcWaite (d : R5)
  | tcResend (d a b : R5)
  | tcAck (d : R5) (apply : Bool)
  | tcNack (d : R5) (noTarget : Bool)
  | tcSetpath (a b : R5)
  | tcPathdown (a b : R5)
  | tcSetwin (a b : R5)
  | tcTmarm (a b : R5)
  | tcTmcan (d a : R5)
  | tcPost (d a b : R5)
  | tcHalt
  -- the step sequencer, the walker, tasks (R200 to R215, R357 to R362)
  | stepbEvaluation (die b : Nat)
  | stepeClose (die b : Nat)
  | ntrAnswer (core ctx : Nat)
  | taskSequencerDispatch (clu : Nat)
  | taskEnd (core ctx : Nat)
  | syncOpen (core ctx : Nat)
  | digcmpResolve (core ctx : Nat)
  -- host queues (R352 to R356)
  | launchPacket (q : Nat)
  | waitPacket (q : Nat)
  | waitSatisfied (q : Nat)
  | signalPacket (q : Nat)
  | markPacket (q : Nat)
  | launchComplete (q : Nat)
  -- the dispatch engine (R349, R366 to R371, R380, R382)
  | softpreBoundary (core ctx : Nat)
  | softpreTimeout (core ctx : Nat)
  -- the host edge (R384 to R398)
  | biasHoldExpiry (page : Nat)
  -- errors, spares, reset, power (R399 to R419)
  | registerWrite (r : DevReg) (v : W64)
  -- inputs from outside: the firmware, the host, peers, and the board (last, so that compiled code never builds them)
  | pageMapped (asid : Nat) (svc : PageSvc)
  | pageRequestDeclined (asid : Nat) (va : W64)
  | shootdown (die : Nat) (w0 w1 w2 : W64)
  | caskmissClear (clu : Nat)
  | pressSelfCheck (core press : Nat) (pass : Bool)
  | rxPlace (die : Nat) (p : Packet)
  | rxReduce (die : Nat) (p : Packet)
  | rxChan (die : Nat) (p : Packet)
  | rxFlushp (die : Nat) (p : Packet)
  | messageHeaderMatch (die : Nat) (h : MsgHdr)
  | channelCredit (asid chan peer : Nat)
  | collBrokenNotice (asid group : Nat)
  | packetAck (die flow : Nat) (psns bytes : List Nat) (marks : List Bool) (rtt : Nat)
  | packetNack (die flow psn : Nat) (code : NackCode)
  | retryBackoffExpiry (die flow psn : Nat)
  | rtoExpiry (die flow : Nat)
  | pathProbe (die : Nat)
  | probeAnswer (die peer slot rtt : Nat)
  | portLinkLoss (die port : Nat)
  | txdstatClr (die : Nat)
  | tcStart (die : Nat)
  | tcStop (die : Nat)
  | tcClrreg (die : Nat)
  | tcMail (die : Nat) (w0 w1 : W64)
  | blockEntryWrite (die b : Nat) (words : List W64)
  | doorbellWrite (vi q : Nat) (w : W64)
  | queueRegister (vi q die : Nat) (qcb : W64)
  | dispatchNew (die : Nat) (w0 rec logidx : W64) (save : SaveTo) (donep : W64)
  | dispatchResume (die : Nat) (w0 : W64) (save : SaveTo) (donep : W64)
  | dispatchSoftpre (die : Nat) (w0 : W64) (save : SaveTo) (donep : W64)
  | dispatchHardpre (die : Nat) (w0 save donep : W64) (keep : Bool)
  | dispatchRemap (die : Nat) (w0 donep w5 : W64)
  | dispatchWalk (die : Nat) (w0 save donep : W64)
  | traceTailWrite (die : Nat) (v : W64)
  | hostHdmRequest (addr : Nat) (r : HostReq)
  | bisnpResponse (pa : Nat) (dirty : List Byte)
  | hostSnoop (line : Nat) (k : Snoop)
  | hostCompletion (core ctx : Nat) (va : W64) (store : Bool) (c : HostCpl)
  | linkDown
  | hlctlRearm
  | eccErrorDetected (site : EccSite) (uc : Bool) (syndrome : W64)
  | hbmRowRemap (stack chan row spare : Nat)
  | hbmChannelSpare (stack chan spare : Nat)
  | coldReset
  | warmReset
  | fwReload (w : W64)
  | fwfloorSet (w : W64)
  | powerStateRequest (st : BitVec 2)
  | powerGovernor (avg gate : Nat)
  | telpwrClearPeak
  | thermalGate (die temp : Nat)
  | thermalGateRelease (t0 t1 t2 t3 : Nat)
  | thermalTrip (die temp : Nat)
  | rmaReadRequest (die : Nat) (job src : Nat) (off len : Nat) (rkey : Nat)
  | rmaReadResponse (die opid : Nat) (bytes : List Byte) (fkind : Option Nat)
  | remotePageMappedReport (core stamp trid : Nat)
  | collGroupReset (asid group : Nat)
  | taskEndedByFirmware (trid : Nat)
  | asidRetire (asid : Nat)
  | hostLinkUp (cxl : Bool)
  | portLinkUp (die port : Nat)
  | powerLoss
  | fwReloadComplete (target : Nat)
  deriving DecidableEq, Repr

end Sys2Proof
end

