-- ==== Sys2Proof/Machine/State.lean ====
section
/-! DEFINITION. The state of the machine, as plain data, and the state after reset. -/

namespace Sys2Proof.Machine

/-- A finite table: entries by rising number; an absent entry reads as the default its reader names. -/
abbrev Tab (α : Type) := List (Nat × α)

/-- Bytes by rising address; an unlisted byte reads as 0 and no entry holds 0 (log 4). -/
abbrev Memory := List Host.Cell

/-- Why a step stops with a fault. Ordinary execution takes no fault: every trap of the spec is taken as a next state. -/
inductive Fault where
  /-- A word that was given as an instruction of a transport core or a slot could not be placed or read: raised by no
  meaning, kept for the closed form of the interface. Safe: the machine stops. -/
  | unreachable
  deriving DecidableEq, Repr

/-- Why a step is refused. -/
inductive Refusal where
  /-- The instruction has no meaning in the model yet. Safe: the machine stops. -/
  | notModelled (mnemonic : String)
  deriving DecidableEq, Repr

/-- A register file of a context (Table 10-1). -/
inductive RFile where
  | x | y | v | k | a | e | tl
  deriving DecidableEq, Repr

/-- A fixed-latency result in flight (R231): the bits `mask` of the register take those of `value` at count `due`. -/
structure Flight where
  file  : RFile
  reg   : Nat
  mask  : VReg
  value : VReg
  due   : Nat
  deriving DecidableEq, Repr

/-- An entry of the shadow result buffer (R378, R379). -/
structure Shadow where
  file  : RFile
  reg   : Nat
  mask  : VReg
  value : VReg
  delta : Nat
  grp   : Nat
  deriving DecidableEq, Repr

/-- A scoreboarded result in flight (R233). `acc` is the number of the global access that answers it; `ready` says that its
data has arrived at the core, so that it may land. -/
structure SbEnt where
  file  : RFile
  reg   : Nat
  mask  : VReg
  value : VReg
  acc   : Nat
  lo    : Nat
  ready : Bool
  sx    : Bool
  deriving DecidableEq, Repr

/-- An NTR in flight: its tile register, the count that its answer is due at, the cycle it reached the walker in, and the answer once
given (R318, R361, R362). One that stands when a trap is delivered has the group that its answer is set aside in, and `due` is then
the delta (R379). -/
structure NtrReq where
  tl    : Nat
  due   : Nat
  since : Nat
  aside : Option Nat
  ans   : Option W64
  deriving DecidableEq, Repr

/-- An entry of the loop stack (R255). -/
structure LoopEnt where
  start : W64
  stop  : W64
  rem   : Nat
  deriving DecidableEq, Repr

/-- A completion record (Table 05-5). -/
structure Rec where
  w0 : W64
  w1 : W64
  deriving DecidableEq, Repr

/-- The walker's slice of a context (Table 16-11). -/
structure Slice where
  lo      : Nat
  hi      : Nat
  pos     : Nat
  reslice : Bool
  have_   : Bool
  stepno  : Nat
  deriving DecidableEq, Repr

/-- An entry of a phase-set table (Table 15-4). -/
structure PhaseEnt where
  addr   : W64
  bytes  : Nat
  phase  : Nat
  engine : Nat
  write  : Bool
  deriving DecidableEq, Repr

/-- An extent record (Table 03-7). -/
structure Extent where
  w0 : W64
  w1 : W64
  w2 : W64
  deriving DecidableEq, Repr

/-- An access held on a page that is not present (R61, R103), and whether the page service has declined. -/
structure PageHold where
  asid     : Nat
  va       : W64
  declined : Bool
  deriving DecidableEq, Repr

/-- What a copy-queue entry is (R98, R106, R324). -/
inductive CopyKind where
  | copy
  | fence (mask : Nat) (id : Nat)
  | digest
  deriving DecidableEq, Repr

/-- An entry of a copy queue: its kind, its queue, the snapshot of its descriptor (a fence keeps its TAG, a digest its
range, in these words), the KPERM and ASID it took, the ring slot it reserved, and how far it has come. -/
structure CopyEnt where
  kind    : CopyKind
  q       : Nat
  words   : List W64
  tag     : Nat
  evt     : Bool
  kperm   : W64
  asid    : Nat
  ring    : Option (Nat × Nat)
  started : Bool
  next    : Nat
  paused  : Option PageHold
  status  : Nat
  fkind   : Nat
  addr    : W64
  ended   : Bool
  sigs    : Nat
  sums    : Tab (List W32)
  deriving DecidableEq, Repr

/-- Why a trap is taken, with the fields of TCAUSE and TADDR it writes (R372, R374). `bundle` names a bundle other than
the resume point where R377 says so. -/
structure Trap where
  cause    : Nat
  acc      : Nat
  fkind    : Nat
  code     : Nat
  lane     : Option Nat
  addr     : W64
  remote   : Bool
  deferred : Bool
  bundle   : Option W64
  deriving DecidableEq, Repr

/-- The state of a context in a cycle (R363). -/
inductive Run where
  | idle | ready | stalled | waiting | held
  deriving DecidableEq, Repr

/-- A pre-emption request (R366, R376): hard or soft, the cycle it came in, whether a bundle has issued since, the save
area, whether the buffers stay resident, and the completion words. `drain` says that the boundary of a soft request is reached, and the
drain awaits answers of the walker. -/
structure Preempt where
  hard   : Bool
  since  : Nat
  issued : Bool
  save   : W64
  keep   : Bool
  donep  : List W64
  drain  : Bool
  deriving DecidableEq, Repr

/-- A stop that waits for the context to settle (R379, R380): the KIND of Table 16-5, the save area, whether the buffers
stay resident, the completion words, and whether a soft request became hard. -/
structure Stop where
  kind  : Nat
  save  : W64
  keep  : Bool
  donep : List W64
  soft  : Bool
  deriving DecidableEq, Repr

/-- The register files of a context (Table 10-1). -/
structure Regs where
  x  : Tab W64
  y  : Tab W64
  v  : Tab VReg
  k  : Tab W64
  a  : Tab W64
  e  : Tab W64
  tl : Tab W64
  deriving DecidableEq, Repr

/-- The system registers of a context (Table 11-3). CTXID is the context's place and is not stored; PRIOCLASS.EFF is
computed. `dom` holds DOMCORE, DOMCLU, DOMDIE, DOMDEV and DOMGRP at 0 to 4. -/
structure Sys where
  taskid    : W64
  logidx    : W64
  asid      : W64
  kperm     : W64
  tvec      : W64
  tcause    : W64
  taddr     : W64
  tbundle   : W64
  tstate    : W64
  prioclass : W64
  dom       : Tab W64
  codebase  : W64
  codelimit : W64
  deriving DecidableEq, Repr

/-- The engine registers of a context (Table 13-6). Words of CDn, MDn, RTn and TDn stand at 8n + w, 9n + w, 4n + w and
4n + w. `plwPend` is an install in progress: the PLWCMD word, and the ASID that it took as it issued (R122, R248). -/
structure Eng where
  cd      : Tab W64
  md      : Tab W64
  rt      : Tab W64
  td      : Tab W64
  plw     : Tab W64
  plwstat : W64
  plwPend : Option (W64 × Nat)
  tpctl   : W64
  tpv     : Tab W64
  haltq   : Nat
  dg      : W64
  deriving DecidableEq, Repr

/-- The pipeline state of a context: program counter, issue count, results in flight, loop stack, shadow buffer, instruction buffer
and the word that it prefetches next (R86). -/
structure Pipe where
  pc       : W64
  count    : Nat
  inflight : List Flight
  sb       : List SbEnt
  ntr      : List NtrReq
  ntrPtr   : Nat
  shadow   : List Shadow
  loops    : List LoopEnt
  ibuf     : Tab W32
  pf       : W64
  deriving DecidableEq, Repr

/-- The scheduling state of a context. `syncAt` is the level of a SYNC at which the context has arrived and waits, 8 more once
that SYNC has opened; `syncN` counts SYNCs per level (R321, R380). `digWait` holds the step and channel of a DIGCMP that has sent
its digest, times 4, plus 1 once every digest agrees or a majority does, or 2 once it traps (R325). `aged` says that it has been Ready
for 65,536 cycles in a row and has not issued since (R365). `ending` holds the exit status and
completion address of a DONE or HALT that has issued, 1 for the address once its access is on its way to another device (R320). -/
structure Sched where
  run      : Run
  stalled  : Nat
  readyFor : Nat
  aged     : Bool
  hold     : Option PageHold
  deferred : List Trap
  preempt  : Option Preempt
  kiter    : Nat
  syncN    : Tab Nat
  syncAt   : Option Nat
  digWait  : Option Nat
  ending   : Option (W64 × W64)
  stop     : Option Stop
  deriving DecidableEq, Repr

/-- One hardware context of a core. `owed` holds records that found the event queue full and have no engine entry that
waits with them (R109). -/
structure Ctx where
  regs    : Regs
  sys     : Sys
  eng     : Eng
  pipe    : Pipe
  sched   : Sched
  evq     : List Rec
  owed    : List Rec
  copyq   : List CopyEnt
  stamp   : Nat
  phase   : Nat
  phases  : List PhaseEnt
  extents : Tab Extent
  slice   : Slice
  trid    : Option Nat
  deriving DecidableEq, Repr

/-- The region of CB that an MX operation reads or writes (R183). -/
structure Region where
  off  : Nat
  cstr : Nat
  m    : Nat
  n    : Nat
  kind : Nat
  deriving DecidableEq, Repr

/-- What a lees-log entry does at replay (Table 16-7). -/
inductive LeesOp where
  | store | atadd | atmin | atmax | atxch | ator | atand
  deriving DecidableEq, Repr

/-- An entry of the lees log (R65). `scope` is that of a release store or of the reduction, 8 for a plain store; `rel` and `acq`
say that it releases or acquires, `vec` that it belongs to a vector store. `remote` marks a global store that the target
reported as faulting, of the access `grp`. `ready` says that its page has been reported mapped, or that it entered the log only
behind others, and that it has not been tried since; `failed` that its check failed or its page was declined (R68); `after` is the
number that the next global access or cache operation took when it was logged, so that its own come before it (R329, R334). -/
structure Lees where
  ctx    : Nat
  trid   : Nat
  asid   : Nat
  stamp  : Nat
  va     : W64
  data   : List (Nat × Byte)
  op     : LeesOp
  size   : Nat
  kperm  : W64
  scope  : Nat
  bundle : W64
  rel    : Bool
  acq    : Bool
  vec    : Bool
  remote : Bool
  grp    : Option Nat
  ready  : Bool
  failed : Bool
  after  : Nat
  deriving DecidableEq, Repr

/-- A press operation from its issue: its context, the ASID it took, its active copy of the descriptor set, its slot fields, the cycle it issues
in, the cycle it starts in and, once started, its results (R185 to R190). `cut` lists the regions that later MZEROs of its
context clear, with their issue cycles, `init` the words that it accumulates on where such an MZERO has cleared them, and
`ended` says that one has ended the hold it takes (R186, R191). -/
structure PressOp where
  ctx     : Nat
  trid    : Nat
  asid    : Nat
  gated   : Bool
  words   : List W64
  o       : MmaOpd
  start   : Nat
  cycles  : Nat
  results : List (Nat × W32)
  issued  : Nat
  cut     : List (Nat × Region)
  init    : Tab W32
  ended   : Bool
  deriving DecidableEq, Repr

/-- A task record as a launch took it (R347): its 32 words, and the words of its extent requests, its bindings and its phase-set
entries (Tables 15-1 to 15-4). -/
structure RecData where
  words  : List W64
  exts   : List (W64 × W64)
  binds  : List (W64 × W64)
  phases : List (W64 × W64)
  deriving DecidableEq, Repr

/-- What a launch took from the task record and its queue (R347, R349, R350), kept by task-record id while the task
lives, on a core or saved; `launch` is the record itself. `queue` is the host queue and packet it belongs to, `counted` says that it is one of that packet's
own tasks and not one of TASK's, and `dynKey` names its launch's dynamic ranges (R361). `leesAway` and `maskAway` keep, beside
the save image, its saved lees entries with the marks that Table 16-7 has no field for, and the bits that each saved shadow
result writes (log 11); `mmagAway` its saved MMAGs with what later MZEROs do to them, `trapAway` the deferred traps that it
takes at its first boundary (R377), and `evqAway` how many records its event-queue image holds. `keep` says that an escalated trap
leaves its buffers on their core (R375). -/
structure Task where
  launch    : RecData
  det       : Bool
  sup       : Bool
  lren      : Bool
  ker       : Nat
  codebase  : W64
  stream    : W64
  nest      : Bool
  dyn       : Bool
  ben       : Bool
  rowloop   : Nat
  block     : Nat
  order     : Nat
  n         : List Nat
  cgrp      : Nat
  save      : W64
  keep      : Bool
  queue     : Option (Nat × Nat)
  asid      : Nat
  core      : Nat
  ctx       : Nat
  resident  : Bool
  saved     : Bool
  gang      : Option (Nat × Nat)
  vi        : Nat
  die       : Nat
  writes    : List (Nat × Nat)
  waitSync  : Option Nat
  ecc       : Bool
  counted   : Bool
  dynKey    : Nat
  extents   : Tab Extent
  phases    : List PhaseEnt
  holds     : List (Nat × Region)
  owed      : List Rec
  leesAway  : List Lees
  maskAway  : List VReg
  mmagAway  : List PressOp
  trapAway  : List Trap
  evqAway   : Nat
  deriving DecidableEq, Repr

/-- A hold that a resume restores once no other context holds the press, with its cells (R192). -/
structure Rehold where
  ctx    : Nat
  region : Region
  cells  : List (Nat × W32)
  deriving DecidableEq, Repr

/-- A press of a core (R185 to R192, R402): the tasks that have issued to it since the last passing check, by key, or by id with true
once the task has ended; busy with a self-check up to cycle `busyTo`, the next being due at `checkAt`; the cells of a restored hold are still to
reload while `fresh`, and reload up to `reload` from its first continuing operation. -/
structure Press where
  cells   : Tab W32
  hold    : Option (Nat × Region)
  held    : List Rehold
  fresh   : Bool
  ops     : List PressOp
  mmags   : List PressOp
  failed  : Bool
  issuers : List (Nat × Bool)
  busyTo  : Nat
  checkAt : Nat
  reload  : Nat
  deriving DecidableEq, Repr

/-- An MZERO or MCVT that is not complete: its context, the region it writes or reads, the cycles it issues and completes in, and
for MCVT the buffer (0 WB, 1 AB) and the bytes it writes at completion. -/
structure MxSlow where
  ctx    : Nat
  region : Region
  issued : Nat
  done   : Nat
  space  : Nat
  bytes  : List Host.Cell
  deriving DecidableEq, Repr

/-- A translation (R53, R59): page number and size it covers, frame, and the leaf's attributes. -/
structure TlbEnt where
  asid   : Nat
  global : Bool
  vbase  : Nat
  size   : Nat
  pbase  : Nat
  pkey   : Nat
  okind  : Nat
  hbias  : Bool
  cpol   : Nat
  x      : Bool
  w      : Bool
  r      : Bool
  deriving DecidableEq, Repr

/-- A translated address with the attributes of the leaf or extent it came from, and the virtual range and G of that leaf or
extent (R53, R59, R63). -/
structure Xl where
  pa    : Nat
  pkey  : Nat
  okind : Nat
  cpol  : Nat
  hbias : Bool
  x     : Bool
  w     : Bool
  r     : Bool
  ebase : Nat
  esize : Nat
  eglob : Bool
  deriving DecidableEq, Repr

/-- M, E, S or I state of an L1 data line (R73); an absent line is I. -/
inductive Mesi where
  | m | e | s
  deriving DecidableEq, Repr

/-- A scope-record domain (Table 14-3). -/
inductive Dom where
  | ctx (core ctx : Nat)
  | core (core : Nat)
  | clu (clu : Nat)
  | die (die : Nat)
  | dev
  | sys
  deriving DecidableEq, Repr

/-- A line of an L1 data cache: dirty bytes, last writer's ASID, state and last use (R72 to R74, R400). Its bytes are those
listed in the cluster's line, with which it is coherent (R73); `under` and `udirty` are the bytes that the cluster cache itself
holds beneath the dirty ones, and whether they were dirty there. -/
structure L1Line where
  dirty : BitVec 128
  under : BitVec 1024
  udirty : BitVec 128
  asid  : Nat
  st    : Mesi
  used  : Nat
  deriving DecidableEq, Repr

/-- A line of a cluster cache (R73, R74): its way of its set (R71, R80), with the scope record its copy took at its fill (R339). -/
structure CcLine where
  way   : Nat
  data  : BitVec 1024
  dirty : BitVec 128
  asid  : Nat
  used  : Nat
  sync  : Option Dom
  deriving DecidableEq, Repr

/-- A line held in its home slice (R48, R390, R400): of a host-homed line the bytes, of a device line the bytes that HBM holds
beneath the dirty ones; its last writer and its last use; and whether a host-homed line came with RdOwn or with RdShared. -/
structure L2Line where
  data  : BitVec 1024
  dirty : BitVec 128
  asid  : Nat
  used  : Nat
  own   : Bool
  deriving DecidableEq, Repr

/-- A logical core (R11, R12). -/
structure Core where
  ctxs    : Tab Ctx
  holder  : Option Nat
  ptr     : Tab Nat
  yielded : Bool
  wb      : Memory
  ab      : Memory
  cb      : Memory
  press   : Tab Press
  mzeros  : List MxSlow
  mcvts   : List MxSlow
  rr      : Nat
  lees    : List Lees
  tlb     : List TlbEnt
  l1      : Tab L1Line
  l1i     : Tab (BitVec 1024)
  phys    : Nat
  offline : Bool
  deriving DecidableEq, Repr

/-- A pinned cask line: its owner and its bytes (R80, R82). -/
structure Cask where
  asid : Nat
  data : BitVec 1024
  deriving DecidableEq, Repr

/-- An entry of a cluster's pipe store (R113), with the reserved slots whose copy entries are not complete (R112). -/
structure PipeEnt where
  p    : BitVec 32
  c    : BitVec 32
  res  : BitVec 32
  held : List Nat
  deriving DecidableEq, Repr

/-- A record in a task sequencer (R357): its address, the ASID and KPERM that TASK took, the core and task that issued it, the queue
of that task's launch, and the record once it has been read (R319). -/
structure SeqEnt where
  va    : W64
  asid  : Nat
  kperm : W64
  core  : Nat
  trid  : Nat
  queue : Option (Nat × Nat)
  data  : Option RecData
  deriving DecidableEq, Repr

/-- A cluster's range of a dynamic nest (R361): its rank among the launch's clusters, their number, and tiles handed out. -/
structure DynRange where
  rank  : Nat
  parts : Nat
  pos   : Nat
  deriving DecidableEq, Repr

/-- A cluster (R71, R80, R113, R357, R361). -/
structure Clu where
  cc       : Tab CcLine
  cask     : Tab Cask
  caskctl  : W64
  missCnt  : BitVec 32
  missOff  : BitVec 25
  missAny  : Bool
  pipes    : Tab PipeEnt
  seq      : List SeqEnt
  dyn      : Tab DynRange
  seqHold  : Option PageHold
  deriving DecidableEq, Repr

/-- A step-sequencer request (R207): a STEPB, a replaying STEPB or a STEPE. -/
inductive StepReq where
  | stepb | stepbRp | stepe
  deriving DecidableEq, Repr

/-- A request: its kind, the context and task that issued it and its tag. -/
structure StepAsk where
  kind : StepReq
  core : Nat
  ctx  : Nat
  trid : Nat
  tag  : Nat
  deriving DecidableEq, Repr

/-- What the sequencer keeps of a block: the task that opened the step, skip bits by row and whether they are latched, the
requests in order, and how far the first has come: its next row, tile or band, its count, and the map entries it has written. -/
structure Step where
  trid    : Nat
  skips   : Tab Bool
  latched : Bool
  reqs    : List StepAsk
  pos     : Nat
  count   : Nat
  ents    : Tab Nat
  paused  : Option PageHold
  deriving DecidableEq, Repr

/-- A path slot (R117, R162, R175): `probing` marks it down, `probed` a probe on its way, `lost` counts packets lost in a
row, and `raised` says that its failure has been raised. -/
structure PathSlot where
  port    : Nat
  entropy : Nat
  weight  : Nat
  probing : Bool
  probed  : Bool
  lost    : Nat
  raised  : Bool
  deriving DecidableEq, Repr

/-- What a transport keeps per peer (R117, R176); `last` is the cycle in which it last started a packet to it. -/
structure Peer where
  slots : Tab PathSlot
  k     : Nat
  s     : Nat
  win   : Nat
  gap   : Nat
  rto   : Nat
  last  : Option Nat
  deriving DecidableEq, Repr

/-- A packet that the device has sent or has to send (R118): sequence number, the job of its context (R464), path slot, header
words, what its semantic header says (log 26), payload, the operation it belongs to, whether it is acknowledged, sent, awaiting its
retry backoff, and known to be missing, and the marks of a global access (log 49). `wire` says that it has been sent at least once,
`since` is the cycle of its last start, or of the answer that its backoff counts from (R466), and `left` the acknowledgements still
to come, one for each peer of a multicast copy (R139). -/
structure OutPkt where
  psn     : Nat
  job     : Nat
  slot    : Nat
  w0      : W64
  w1      : W64
  w2      : W64
  w3      : W64
  sem     : List W64
  payload : List Byte
  opid    : Nat
  acked   : Bool
  sent    : Bool
  backoff : Bool
  missing : Bool
  sync    : Bool
  noret   : Bool
  wire    : Bool
  since   : Nat
  left    : Nat
  deriving DecidableEq, Repr

/-- A global access that its flow has not answered (R149, R150, R465); `acq` marks an acquire, `sync` a synchronisation access
(R339), `wdata` is its W2. `lees` is the stamp of the log entry that it sends again (R66), `grp` the access whose reservations
in the log it keeps (R67), `psn` is its place in its flow, and `vec` says that it is an element of a vector access. -/
structure GAcc where
  id     : Nat
  core   : Nat
  ctx    : Nat
  trid   : Nat
  va     : W64
  op     : Nat
  atop   : Nat
  load   : Bool
  acq    : Bool
  data   : List (Nat × Byte)
  wdata  : Nat
  size   : Nat
  kperm  : W64
  bundle : W64
  opid   : Nat
  sync   : Bool
  lees   : Option Nat
  grp    : Option Nat
  psn    : Nat
  vec    : Bool
  deriving DecidableEq, Repr

/-- A flow to a peer (R117, R149, R160); `rtoAt` is the cycle of its last retransmission timeout, `timeouts` how many in a row its
oldest packet has had, and `rtoPsn` that packet. -/
structure Flow where
  peer     : Nat
  asid     : Nat
  rod      : Bool
  next     : Nat
  slot     : Nat
  pkts     : List OutPkt
  accs     : List GAcc
  timeouts : Nat
  rtoAt    : Nat
  rtoPsn   : Option Nat
  deriving DecidableEq, Repr

/-- A transport operation that has not completed (R134, R161). KIND: 0 TXPUT, 1 TXGET, 2 TXRED, 3 TXMC, 4 CHSEND, 5 TXFLUSH,
6 TXFLUSH.P, 7 RXPOST, 8 CHRECV, 9 CTRSNAP. `total` and `acked` count its packets, `bytes` those acknowledged, `mark` is the
its place among the operations and global accesses; `data` holds bytes that arrived and are to be written, `src` the source and
operation of a message whose payload is still to come (R142); `ready` says that it completes once its record has room. -/
structure TxOp where
  opid    : Nat
  kind    : Nat
  core    : Nat
  ctx     : Nat
  trid    : Nat
  asid    : Nat
  tag     : Nat
  source  : Nat
  noev    : Bool
  words   : List W64
  xb      : W64
  kperm   : W64
  total   : Nat
  acked   : Nat
  bytes   : Nat
  ctr     : Option Nat
  status  : Nat
  fkind   : Nat
  addr    : W64
  group   : Nat
  gseq    : Nat
  gdig    : Nat
  peers   : List Nat
  started : Bool
  ready   : Bool
  mark    : Nat
  data    : Option (List Byte)
  src     : Option (Nat × Nat)
  waitPg  : Option PageHold
  deriving DecidableEq, Repr

/-- An event record of a transport core (Table 07-3), the flow and the peer it names, a multicast group too, which W0 has no room for,
and the packet held with it (R163). -/
structure TcEvent where
  flow : Nat
  peer : Nat
  w0   : W64
  w1   : W64
  w2   : W64
  w3   : W64
  held : Option Packet
  hdr  : Option MsgHdr
  deriving DecidableEq, Repr

/-- The transport core of a die (Table 07-1, Table 07-2). STATE is 0 stopped, 1 running, 2 HALT, 3 fault; `busy` counts the cycles
that its last instruction still occupies (R155). -/
structure Tc where
  t        : Tab W64
  pc       : BitVec 14
  imem     : Tab W32
  smem     : Tab W64
  queue    : List TcEvent
  cur      : Option TcEvent
  answered : Bool
  heldAt   : Nat
  timers   : Tab Nat
  start    : BitVec 14
  state    : Nat
  cause    : Nat
  statPc   : BitVec 14
  evlost   : Nat
  defaults : Nat
  limit    : Nat
  evseq    : Nat
  busy     : Nat
  deriving DecidableEq, Repr

/-- The trace ring of a die (Table 15-11) and its decision counters (R370). -/
structure Trace where
  base  : W64
  ctl   : W64
  head  : Nat
  tail  : Nat
  gap   : Nat
  dcnt  : Tab Nat
  stopped : Bool
  deriving DecidableEq, Repr

/-- A completion tree (R358): counts by node; node 0 the die, 1 and 2 its clusters, 3 + core, then sequencers and save
lists. -/
structure Tree where
  c : Tab Nat
  deriving DecidableEq, Repr

/-- A message in a die's mailbox ring towards the firmware: kind 0 fault record, 1 error record, 2 page request,
3 notice; and its words. -/
structure Mail where
  kind  : Nat
  words : List W64
  deriving DecidableEq, Repr

/-- A shoot-down a die has taken (R63): its command words, between step 3 and step 5. -/
structure Shoot where
  w0 : W64
  w1 : W64
  w2 : W64
  deriving DecidableEq, Repr

/-- The transport side of a die (R115 to R153). Routing counters stand in `route`; flows by flow id; `linkDown` holds the
ports without link, `dead` those that have lost link since reset, each with whether a probe of its paths is out (R162). `answer` is
the last answer to a peer: source, flow, PSN and code, 0 accepted, 1 "retry", 2 "no target", 3 not durable,
5 a selective negative acknowledgement of a trimmed packet (R115). `rmaHeld` holds the RMA reads that wait
for a page or its bias: job, source, offset, length and key (R103, R387). `rodNext` holds the next sequence number of each arriving
flow of global accesses or answers (R149). -/
structure Transport where
  peers  : Tab Peer
  flows  : Tab Flow
  ops    : List TxOp
  opid   : Nat
  route  : Tab Nat
  mcdeg  : Bool
  unsupp : Nat
  malform : Nat
  stale  : Nat
  duptag : Nat
  overred : Nat
  mcdegr : Nat
  linkDown : List Nat
  dead   : Tab Bool
  answer : Option (Nat × Nat × Nat × Nat)
  seen   : List (Nat × Nat)
  rxHeld : List (Nat × Packet)
  rmaHeld : List (Nat × Nat × Nat × Nat × Nat)
  rodNext : Tab Nat
  deriving DecidableEq, Repr

/-- A command in a die's mailbox ring (Table 15-10): its 8 words, the work distributor's choice for the task's buffers (R367), and the
interface on whose behalf it launches on its own account (R395). -/
structure Cmd where
  words  : List W64
  keep   : Bool
  behalf : Option Nat
  deriving DecidableEq, Repr

/-- A completion add of the dispatch engine that is not performed: the ASID of the launch served, its address, and the page it waits for
(R60, R368). -/
structure DoneAdd where
  asid : Nat
  addr : W64
  hold : Option PageHold
  deriving DecidableEq, Repr

/-- A die (R11). `cmds` are the commands of its mailbox ring, `gang` those for members of gangs that wait for those of their fellows,
and `adds` the completion adds to be performed (R351, R368). `asidTab` holds the ASID table entries that the die's walker has in force (R51); `dtc` and `stc` are the
translation caches of its dispatch engine and step sequencer (R60). -/
structure Die where
  tlb      : List TlbEnt
  wcache   : List (Nat × Nat)
  asidBase : Nat
  asidTab  : Tab (W64 × W64)
  dtc      : List TlbEnt
  stc      : List TlbEnt
  shoots   : List Shoot
  cmds     : List Cmd
  gang     : List Cmd
  adds     : List DoneAdd
  blocks   : Tab (List W64)
  steps    : Tab Step
  tx       : Transport
  tc       : Tc
  trace    : Trace
  trees    : Tab Tree
  groups   : Tab W64
  errcnt   : Tab Nat
  errlost  : Nat
  errseq   : Nat
  mail     : List Mail
  temp     : Nat
  deriving DecidableEq, Repr

/-- A placement entry (Table 06-3) with the contributions counted per chunk and those staged (chunk, source, tag, bytes), the
epochs it has completed, those that a CHRECV has consumed, and the devices that sent to it. -/
structure Place where
  words  : List W64
  count  : Tab Nat
  staged : List (Nat × Nat × W64 × List Byte)
  epochs : Nat
  taken  : Nat
  srcs   : List Nat
  deriving DecidableEq, Repr

/-- An armed slot of the trigger unit (R316). -/
structure TrigSlot where
  opk   : Nat
  words : List W64
  xa    : W64
  xb    : W64
  kperm : W64
  tpctl : W64
  tpv   : List W64
  core  : Nat
  ctx   : Nat
  trid  : Nat
  deriving DecidableEq, Repr

/-- A posted receive (R142, R315). -/
structure Posted where
  opid  : Nat
  die   : Nat
  tag   : W64
  mask  : W64
  src   : Nat
  len   : Nat
  deriving DecidableEq, Repr

/-- A collective group of a communication context (R140, R141): `peers` are those that its operations and packets have named, and
`tell` the channels, each with a die, whose peers are to be told that it is broken once the channel's list can be read. -/
structure Coll where
  gseq   : Nat
  broken : Bool
  own    : List (Nat × Nat)
  pairs  : List (Nat × Nat)
  peers  : List Nat
  tell   : List (Nat × Nat)
  deriving DecidableEq, Repr

/-- A communication context, one per ASID (R120, R137, R142, R146, R464); `job` is none before the work distributor creates it.
`parts` holds the payload that has come of messages: source, operation, offset and bytes. -/
structure Comm where
  ptsize  : Nat
  job     : Option Nat
  table   : Tab Place
  chans   : Tab W64
  ctr     : Tab W64
  trigs   : Tab TrigSlot
  posted  : List Posted
  unexp   : List MsgHdr
  parts   : List (Nat × Nat × Nat × List Byte)
  groups  : Tab Coll
  credits : Tab Nat
  digests : List (Nat × Nat × Nat × W64)
  deriving DecidableEq, Repr

/-- A release held at its place behind lees entries (R69): its address, its translation and its scope, its bytes, the
operation and size of a reduction, and its bundle. `frozen` says that an entry it waits for failed the scope check (R341). -/
structure HeldRel where
  trid   : Nat
  asid   : Nat
  va     : W64
  core   : Nat
  ctx    : Nat
  stamp  : Nat
  x      : Xl
  scope  : Nat
  data   : List Byte
  atop   : Option (LeesOp × Nat)
  bundle : W64
  frozen : Bool
  deriving DecidableEq, Repr

/-- A CFLUSH or CINV of one line that is not complete: an earlier release of its task to the line is still held (R79), or its page's
bias is awaited (R387); `id` is its place among the accesses that have a number. -/
structure CacheOp where
  id    : Nat
  trid  : Nat
  clu   : Nat
  x     : Xl
  scope : Nat
  inv   : Bool
  deriving DecidableEq, Repr

/-- A packet of a host queue that has started and not completed (R354, R355), with the records that a LAUNCH took (R347) and the die that
its queue was bound to (R356). `stuck` says that its signal has halted the queue with SIGFAULT. -/
structure QPkt where
  index : Nat
  recs  : List RecData
  words : List W64
  left  : Nat
  todo  : List Nat
  fault : Bool
  stuck : Bool
  done  : Bool
  die   : Nat
  deriving DecidableEq, Repr

/-- A registered host queue (R352 to R356). The QCB itself is memory, at a physical address. `held` is a page that a packet
waits for (R354); `launched` says that it has launched a task (R400). -/
structure Queue where
  qcb  : Nat
  vi   : Nat
  q    : Nat
  die  : Nat
  pkts : List QPkt
  held : Option PageHold
  launched : Bool
  deriving DecidableEq, Repr

/-- A back-invalidate snoop of one line (R387): BISnpInv or BISnpData, and whether it is answered. -/
structure BiSnoop where
  inv  : Bool
  done : Bool
  deriving DecidableEq, Repr

/-- A host access of a context that will end in a failed completion (R384, R398): its address, and whether it writes (log 39). -/
structure HostFail where
  core  : Nat
  ctx   : Nat
  va    : W64
  store : Bool
  deriving DecidableEq, Repr

/-- Host-link registers; flips in progress by page with the responses left, pages whose flip has ended and whose device access comes
first, with the cycle of the end, bias holds by page with their end, snoops of single lines, host requests that wait, the answers to
the host, none an Unsupported Request, and host accesses that will fail (R384 to R398). -/
structure Link where
  up       : Bool
  cxl      : Bool
  fenced   : Bool
  downseen : Bool
  aoc      : Bool
  biasbase : W64
  flipd    : Nat
  fliph    : Nat
  orphbase : W64
  lost     : Nat
  head     : Nat
  hdmbase  : Nat
  flips    : Tab Nat
  grants   : Tab Nat
  holds    : Tab Nat
  snoops   : Tab BiSnoop
  waiting  : List (Nat × HostReq)
  replies  : List (Nat × Option (List Byte))
  fails    : List HostFail
  vicfg    : Tab W64
  deriving DecidableEq, Repr

/-- Firmware, power and telemetry registers (Table 19-3), the fused floors and the fused digest of the image key (R412), and the cycle at
which an exit from M2 is over (Table 19-2). -/
structure Board where
  znfM     : Bool
  boot     : Nat
  fwctl    : W64
  fwver    : BitVec 32
  fwresult : Nat
  floors   : Tab Nat
  keyDigest : Nat
  limit    : Nat
  gate     : Nat
  forced   : Bool
  pstate   : Nat
  exitAt   : Nat
  avg      : Nat
  peak     : Nat
  gated    : Nat
  tripped  : Bool
  powered  : Bool
  deriving DecidableEq, Repr

/-- A remapped HBM row or channel (R404): stack, channel, row (none for a channel), spare, and whether a post-package repair has made a
row's remap permanent (R410). -/
structure Remap where
  stack : Nat
  chan  : Nat
  row   : Option Nat
  spare : Nat
  perm  : Bool
  deriving DecidableEq, Repr

/-- The agent that acts when the agenda is empty: a core, or the transport core of a die (log 1). -/
inductive Agent where
  | core (c : Nat)
  | tc (d : Nat)
  deriving DecidableEq, Repr

/-- The machine. Everything by number is a Tab whose absent entries are at their reset value. `tags` holds the tags applied of each
source device (R132). -/
structure State where
  cores    : Tab Core
  clus     : Tab Clu
  dies     : Tab Die
  comm     : Tab Comm
  tasks    : Tab Task
  mem      : Memory
  l2       : Tab L2Line
  homeRec  : Tab Dom
  tags     : Tab (List W64)
  releases : List HeldRel
  cacheOps : List CacheOp
  queues   : Tab Queue
  link     : Link
  board    : Board
  remaps   : List Remap
  cycle    : Nat
  accId    : Nat
  fenceId  : Nat
  spares   : Tab Nat
  fresh    : Nat
  focus    : Agent
  agenda   : List Instr
  deriving DecidableEq, Repr

/-! Reset (R410 step 2): every register at its Reset value, contexts Idle, buffers zero, no cask line pinned, transport
cores stopped. Values the spec does not give are those of log 6. -/

/-- Register files after reset (log 6). -/
def Regs.reset : Regs := { x := [], y := [], v := [], k := [], a := [], e := [], tl := [] }

/-- System registers after reset: Table 11-4's Reset column; fields marked there by a dash are 0 (log 6). -/
def Sys.reset : Sys :=
  { taskid := 0, logidx := 0, asid := 0, kperm := BitVec.allOnes 64, tvec := 0, tcause := 0, taddr := 0, tbundle := 0,
    tstate := 0, prioclass := 0, dom := [], codebase := 0, codelimit := 0 }

/-- Engine registers after reset: all 0 (Tables 05-3, 05-4, 05-6, 06-3, 06-4, 08-1, 13-8, 13-10). -/
def Eng.reset : Eng :=
  { cd := [], md := [], rt := [], td := [], plw := [], plwstat := 0, plwPend := none, tpctl := 0, tpv := [], haltq := 0,
    dg := 0 }

/-- Nothing in flight after reset. -/
def Pipe.reset : Pipe :=
  { pc := 0, count := 0, inflight := [], sb := [], ntr := [], ntrPtr := 0, shadow := [], loops := [], ibuf := [], pf := 0 }

/-- Every context is Idle after reset (R410). -/
def Sched.reset : Sched :=
  { run := .idle, stalled := 0, readyFor := 0, aged := false, hold := none, deferred := [], preempt := none, kiter := 0, syncN := [],
    syncAt := none, digWait := none, ending := none, stop := none }

/-- No slice (Table 16-11). -/
def Slice.reset : Slice := { lo := 0, hi := 0, pos := 0, reslice := false, have_ := false, stepno := 0 }

/-- A context after reset. -/
def Ctx.reset : Ctx :=
  { regs := .reset, sys := .reset, eng := .reset, pipe := .reset, sched := .reset, evq := [], owed := [], copyq := [], stamp := 0,
    phase := 0, phases := [], extents := [], slice := .reset, trid := none }

/-- A press after reset. -/
def Press.reset : Press :=
  { cells := [], hold := none, held := [], fresh := false, ops := [], mmags := [], failed := false, issuers := [], busyTo := 0, checkAt := 2 ^ 24, reload := 0 }

/-- A core after reset; its selector pointers read 3 (R364). `phys` 0 stands for the core's own number. -/
def Core.reset : Core :=
  { ctxs := [], holder := none, ptr := [], yielded := false, wb := [], ab := [], cb := [], press := [], mzeros := [],
    mcvts := [], rr := 0, lees := [], tlb := [], l1 := [], l1i := [], phys := 0, offline := false }

/-- A cluster after reset (R81, R85). -/
def Clu.reset : Clu :=
  { cc := [], cask := [], caskctl := 0, missCnt := 0, missOff := 0, missAny := false, pipes := [], seq := [], dyn := [], seqHold := none }

/-- A transport after reset (R117, R153, R176). -/
def Transport.reset : Transport :=
  { peers := [], flows := [], ops := [], opid := 0, route := [], mcdeg := false, unsupp := 0, malform := 0, stale := 0,
    duptag := 0, overred := 0, mcdegr := 0, linkDown := [], dead := [], answer := none, seen := [], rxHeld := [], rmaHeld := [], rodNext := [] }

/-- A transport core after reset: stopped, TCWDOG.LIMIT 65,536 (R157, R159). -/
def Tc.reset : Tc :=
  { t := [], pc := 0, imem := [], smem := [], queue := [], cur := none, answered := false, heldAt := 0, timers := [],
    start := 0, state := 0, cause := 0, statPc := 0, evlost := 0, defaults := 0, limit := 65536, evseq := 0, busy := 0 }

/-- The trace ring after reset: disabled (R369). -/
def Trace.reset : Trace := { base := 0, ctl := 0, head := 0, tail := 0, gap := 0, dcnt := [], stopped := false }

/-- A die after reset. -/
def Die.reset : Die :=
  { tlb := [], wcache := [], asidBase := 0, asidTab := [], dtc := [], stc := [], shoots := [], cmds := [], gang := [], adds := [], blocks := [], steps := [], tx := .reset,
    tc := .reset, trace := .reset, trees := [], groups := [], errcnt := [], errlost := 0, errseq := 0, mail := [],
    temp := 0 }

/-- A communication context before the work distributor creates it (R120). -/
def Comm.reset : Comm :=
  { ptsize := 0, job := none, table := [], chans := [], ctr := [], trigs := [], posted := [], unexp := [], parts := [],
    groups := [], credits := [], digests := [] }

/-- Host-link registers after reset (Table 17-3). -/
def Link.reset : Link :=
  { up := false, cxl := false, fenced := false, downseen := false, aoc := false, biasbase := 0, flipd := 0, fliph := 0,
    orphbase := 0, lost := 0, head := 0, hdmbase := 0, flips := [], grants := [], holds := [], snoops := [],
    waiting := [], replies := [], fails := [], vicfg := [] }

/-- Firmware, power and telemetry registers after reset (Table 19-3); `boot` is the last step of Table 19-1 done. -/
def Board.reset : Board :=
  { znfM := true, boot := 2, fwctl := 0, fwver := 0, fwresult := 0, floors := [], keyDigest := 0, limit := 3200, gate := 0,
    forced := false, pstate := 0, exitAt := 0, avg := 0, peak := 0, gated := 0, tripped := false, powered := true }

/-- The machine right after step 2 of the reset sequence (R410). -/
def State.reset : State :=
  { cores := [], clus := [], dies := [], comm := [], tasks := [], mem := [], l2 := [], homeRec := [], tags := [], releases := [], cacheOps := [],
    queues := [], link := .reset, board := .reset, remaps := [], cycle := 0, accId := 0, fenceId := 0, spares := [],
    fresh := 0, focus := .core 0, agenda := [] }

end Sys2Proof.Machine
end

