-- ==== Sys2Proof/Machine/Ops.lean ====
section
/-! DEFINITION. The named operations over tables, memory, the cores and their contexts, the register files, results in
flight, the event queue and the mailbox. -/

namespace Sys2Proof.Machine

/-! ## Tables -/

/-- The entry of a table, if listed. -/
def tget? {α : Type} : Tab α → Nat → Option α
  | [], _ => none
  | (k, v) :: t, n => if k = n then some v else tget? t n

/-- The entry of a table, or the default. -/
def tget {α : Type} (d : α) (t : Tab α) (n : Nat) : α := (tget? t n).getD d

/-- Lists an entry, in place of one of its number. -/
def tset {α : Type} : Tab α → Nat → α → Tab α
  | [], n, a => [(n, a)]
  | (k, v) :: t, n, a => if n < k then (n, a) :: (k, v) :: t else if n = k then (n, a) :: t else (k, v) :: tset t n a

/-- Removes an entry. -/
def tdel {α : Type} (t : Tab α) (n : Nat) : Tab α := t.filter fun p => p.1 != n

/-- Changes an entry. -/
def tupd {α : Type} (d : α) (t : Tab α) (n : Nat) (f : α → α) : Tab α := tset t n (f (tget d t n))

/-- Changes every element of a list that satisfies a test. -/
def mapIf {α : Type} (p : α → Bool) (f : α → α) (l : List α) : List α := l.map fun a => if p a then f a else a

/-! ## Memory (R4; log 4) -/

/-- A byte of a memory; an unlisted byte is 0. -/
def mget (m : Memory) (a : Nat) : Byte := tget 0 m a

/-- Writes a byte; a 0 is not listed. -/
def mset (m : Memory) (a : Nat) (b : Byte) : Memory := if b = 0 then tdel m a else tset m a b

/-- The canonical form of a memory: addresses strictly rising, no byte 0 listed. -/
abbrev Memory.wf (m : Memory) : Prop := m.Pairwise (fun p q => p.1 < q.1) ∧ ∀ p ∈ m, p.2 ≠ 0

/-- n bytes from an address. -/
def mread (m : Memory) (a n : Nat) : List Byte := (List.range n).map fun i => mget m (a + i)

/-- Writes bytes from an address. -/
def mwrite (m : Memory) (a : Nat) : List Byte → Memory
  | [] => m
  | b :: bs => mwrite (mset m a b) (a + 1) bs

/-- Writes listed bytes, in order. -/
def mwriteCells (m : Memory) (cs : List Host.Cell) : Memory := cs.foldl (fun m c => mset m c.1 c.2) m

/-- Little-endian value of bytes (R4). -/
def ofBytes : List Byte → Nat
  | [] => 0
  | b :: bs => b.toNat + 256 * ofBytes bs

/-- n bytes of a value, little-endian (R4). -/
def toBytes : Nat → Nat → List Byte
  | 0, _ => []
  | n + 1, v => BitVec.ofNat 8 v :: toBytes n (v / 256)

/-- A 64-bit word of bytes. -/
def w64 (bs : List Byte) : W64 := BitVec.ofNat 64 (ofBytes bs)

/-- The word at an index of a list of words, 0 beyond. -/
def wd (ws : List W64) (i : Nat) : W64 := ws.getD i 0

/-- Replaces bits hi..lo of a word by the low bits of a number. -/
def setFld (w : W64) (hi lo v : Nat) : W64 :=
  let m := (2 ^ (hi + 1 - lo) - 1) <<< lo
  (w &&& ~~~(BitVec.ofNat 64 m)) ||| (BitVec.ofNat 64 (v <<< lo) &&& BitVec.ofNat 64 m)

/-- A word from (value, low bit) parts whose fields do not overlap. -/
def mkW (parts : List (Nat × Nat)) : W64 := parts.foldl (fun w p => w ||| BitVec.ofNat 64 (p.1 <<< p.2)) 0

/-- A word as a signed number (R9). -/
def sgn (w : W64) : Int := w.toInt

/-- Bits hi..lo of a word as signed. -/
def sfld (w : W64) (hi lo : Nat) : Int := sextNat (fld w hi lo) (hi + 1 - lo)

/-! ## Cores, contexts, clusters, dies -/

/-- A context by core and number. -/
structure At where
  core : Nat
  ctx  : Nat
  deriving DecidableEq, Repr

/-- Cluster of a logical core (R12). -/
def clusterOf (core : Nat) : Nat := core / 64
/-- Die of a logical core (R12). -/
def dieOf (core : Nat) : Nat := core / 128
/-- Die of a cluster (R12). -/
def dieOfClu (clu : Nat) : Nat := clu / 2

/-- A core. -/
def State.core (s : State) (c : Nat) : Core := tget Core.reset s.cores c
/-- Changes a core. -/
def State.updCore (s : State) (c : Nat) (f : Core → Core) : State := { s with cores := tset s.cores c (f (s.core c)) }
/-- A context. -/
def State.ctx (s : State) (w : At) : Ctx := tget Ctx.reset (s.core w.core).ctxs w.ctx
/-- Changes a context. -/
def State.updCtx (s : State) (w : At) (f : Ctx → Ctx) : State :=
  s.updCore w.core fun k => { k with ctxs := tset k.ctxs w.ctx (f (tget Ctx.reset k.ctxs w.ctx)) }
/-- Changes the register files of a context. -/
def State.updRegs (s : State) (w : At) (f : Regs → Regs) : State := s.updCtx w fun c => { c with regs := f c.regs }
/-- Changes the system registers of a context. -/
def State.updSys (s : State) (w : At) (f : Sys → Sys) : State := s.updCtx w fun c => { c with sys := f c.sys }
/-- Changes the engine registers of a context. -/
def State.updEng (s : State) (w : At) (f : Eng → Eng) : State := s.updCtx w fun c => { c with eng := f c.eng }
/-- Changes the pipeline state of a context. -/
def State.updPipe (s : State) (w : At) (f : Pipe → Pipe) : State := s.updCtx w fun c => { c with pipe := f c.pipe }
/-- Changes the scheduling state of a context. -/
def State.updSched (s : State) (w : At) (f : Sched → Sched) : State := s.updCtx w fun c => { c with sched := f c.sched }
/-- A cluster. -/
def State.clu (s : State) (c : Nat) : Clu := tget Clu.reset s.clus c
/-- Changes a cluster. -/
def State.updClu (s : State) (c : Nat) (f : Clu → Clu) : State := { s with clus := tset s.clus c (f (s.clu c)) }
/-- A die. -/
def State.die (s : State) (d : Nat) : Die := tget Die.reset s.dies d
/-- Changes a die. -/
def State.updDie (s : State) (d : Nat) (f : Die → Die) : State := { s with dies := tset s.dies d (f (s.die d)) }
/-- Changes the transport of a die. -/
def State.updTx (s : State) (d : Nat) (f : Transport → Transport) : State := s.updDie d fun x => { x with tx := f x.tx }
/-- Changes the transport core of a die. -/
def State.updTc (s : State) (d : Nat) (f : Tc → Tc) : State := s.updDie d fun x => { x with tc := f x.tc }
/-- A communication context (R120). -/
def State.commOf (s : State) (asid : Nat) : Comm := tget Comm.reset s.comm asid
/-- Changes a communication context. -/
def State.updComm (s : State) (asid : Nat) (f : Comm → Comm) : State :=
  { s with comm := tset s.comm asid (f (s.commOf asid)) }
/-- A press of a core. -/
def Core.pressOf (k : Core) (p : Nat) : Press := tget Press.reset k.press p
/-- Changes a press. -/
def State.updPress (s : State) (core p : Nat) (f : Press → Press) : State :=
  s.updCore core fun k => { k with press := tset k.press p (f (k.pressOf p)) }

/-- What a register write does: before step 6 of the reset sequence it is ignored (R411). -/
def State.onBoot (s t : State) : State := if s.board.boot < 6 then s else t

/-- Whether the ports are off: in M2, and while they retrain on the way out of it (R416, Table 19-2). -/
def State.portsOff (s : State) : Bool := s.board.pstate == 2 || s.cycle < s.board.exitAt

/-- What arrives over a port does nothing while the ports are off (R416). -/
def State.fromPort (s t : State) : State := if s.portsOff then s else t

/-- The task of a context. -/
def State.taskOf (s : State) (w : At) : Option Task := (s.ctx w).trid.bind fun t => tget? s.tasks t
/-- Changes a task. -/
def State.updTask (s : State) (trid : Nat) (f : Task → Task) : State :=
  match tget? s.tasks trid with
  | none => s
  | some t => { s with tasks := tset s.tasks trid (f t) }

/-- The task-record id of a task's key: tasks of one id run side by side, under keys that differ by multiples of 2²⁴ (log 14). -/
def idOf (key : Nat) : Nat := key % 2 ^ 24
/-- The keys of the tasks of an id. -/
def State.named (s : State) (trid : Nat) : List Nat := (s.tasks.map (·.1)).filter fun k => idOf k == idOf trid
/-- The key of a new task of an id: the least that no task has. -/
def State.freshKey (s : State) (trid : Nat) : Nat :=
  (((List.range (s.tasks.length + 1)).map fun i => trid + 2 ^ 24 * i).find? fun k => (tget? s.tasks k).isNone).getD trid

/-- The ASID of a context (R51). -/
def Ctx.asid (c : Ctx) : Nat := fld c.sys.asid 9 0
/-- The key of a context's task, 0 with no task. -/
def Ctx.tridN (c : Ctx) : Nat := c.trid.getD 0
/-- Supervisor mode (R249). -/
def Ctx.sup (c : Ctx) : Bool := bit c.sys.tstate 0
/-- A handler is running (R262). -/
def Ctx.inh (c : Ctx) : Bool := bit c.sys.tstate 2

/-! ## Register files (R216, R217) -/

/-- Registers of a file (Table 10-1). -/
def fileSize : RFile → Nat
  | .x => 32 | .y => 32 | .v => 32 | .k => 8 | .a => 16 | .e => 8 | .tl => 4

/-- An x register; x0 reads 0. -/
def Regs.getX (r : Regs) (n : Nat) : W64 := if n = 0 then 0 else tget 0 r.x n
/-- A y register; y0 reads 0. -/
def Regs.getY (r : Regs) (n : Nat) : W64 := if n = 0 then 0 else tget 0 r.y n
/-- A k register; k0 reads all ones. -/
def Regs.getK (r : Regs) (n : Nat) : W64 := if n = 0 then BitVec.allOnes 64 else tget 0 r.k n
/-- A v register. -/
def Regs.getV (r : Regs) (n : Nat) : VReg := tget 0 r.v n
/-- An a register. -/
def Regs.getA (r : Regs) (n : Nat) : W64 := tget 0 r.a n
/-- An e register. -/
def Regs.getE (r : Regs) (n : Nat) : W64 := tget 0 r.e n
/-- A tl register. -/
def Regs.getTl (r : Regs) (n : Nat) : W64 := tget 0 r.tl n

/-- A register of any 64-bit file; a v register gives its low piece. -/
def Regs.get (r : Regs) : RFile → Nat → W64
  | .x, n => r.getX n
  | .y, n => r.getY n
  | .k, n => r.getK n
  | .a, n => r.getA n
  | .e, n => r.getE n
  | .tl, n => r.getTl n
  | .v, n => (r.getV n).setWidth 64

/-- The old bits outside the mask and the new bits inside. -/
def merge {w : Nat} (mask old new : BitVec w) : BitVec w := (old &&& ~~~mask) ||| (new &&& mask)

/-- Writes the masked bits of a register; x0, y0 and k0 discard (R216). -/
def Regs.put (r : Regs) (f : RFile) (n : Nat) (mask value : VReg) : Regs :=
  let m := mask.setWidth 64
  let v := value.setWidth 64
  match f with
  | .x => if n = 0 then r else { r with x := tset r.x n (merge m (r.getX n) v) }
  | .y => if n = 0 then r else { r with y := tset r.y n (merge m (r.getY n) v) }
  | .k => if n = 0 then r else { r with k := tset r.k n (merge m (r.getK n) v) }
  | .a => { r with a := tset r.a n (merge m (r.getA n) v) }
  | .e => { r with e := tset r.e n (merge m (r.getE n) v) }
  | .tl => { r with tl := tset r.tl n (merge m (r.getTl n) v) }
  | .v => { r with v := tset r.v n (merge mask (r.getV n) value) }

/-! ## Results in flight (R231 to R234) -/

/-- The mask of a whole register. -/
def wholeMask : VReg := BitVec.allOnes 2048

/-- A result of fixed latency: file, register, bits, value, latency. -/
structure Res where
  file  : RFile
  reg   : Nat
  mask  : VReg
  value : VReg
  lat   : Nat

/-- A whole 64-bit result. -/
def Res.w (f : RFile) (n : Nat) (v : W64) (lat : Nat) : Res := ⟨f, n, wholeMask, v.setWidth 2048, lat⟩

/-- A whole v result. -/
def Res.v (n : Nat) (v : VReg) (lat : Nat) : Res := ⟨.v, n, wholeMask, v, lat⟩

/-- Places a result behind those due no later, so that the list stands in landing order (R234, R379). -/
def insertFlight : List Flight → Flight → List Flight
  | [], f => [f]
  | g :: l, f => if f.due < g.due then f :: g :: l else g :: insertFlight l f

/-- Puts the results of a slot issued at count n in flight (R231). -/
def Pipe.push (p : Pipe) (n : Nat) (rs : List Res) : Pipe :=
  { p with inflight := rs.foldl (fun l r => insertFlight l ⟨r.file, r.reg, r.mask, r.value, n + r.lat⟩) p.inflight }

/-- Writes a result in flight. -/
def Regs.landOne (r : Regs) (f : Flight) : Regs := r.put f.file f.reg f.mask f.value

/-- Lands every result due at or before a count (R231). -/
def Ctx.landTo (c : Ctx) (n : Nat) : Ctx :=
  { c with
    regs := (c.pipe.inflight.filter fun f => f.due ≤ n).foldl Regs.landOne c.regs
    pipe := { c.pipe with inflight := c.pipe.inflight.filter fun f => n < f.due } }

/-- Whether a register has a fixed-latency result in flight. -/
def Pipe.flying (p : Pipe) (f : RFile) (n : Nat) : Bool := p.inflight.any fun x => x.file == f && x.reg == n

/-- Whether a register has a scoreboarded result in flight (R233). -/
def Pipe.scoreboarded (p : Pipe) (f : RFile) (n : Nat) : Bool := p.sb.any fun x => x.file == f && x.reg == n

/-- The NTRs of a context that are not set aside by a trap. -/
def Pipe.ntrOwn (p : Pipe) : List NtrReq := p.ntr.filter fun q => q.aside.isNone

/-- The drain of R252: the count of the next bundle. An NTR's result is due 16 counts after its issue (Table 10-16). -/
def Pipe.drainTo (p : Pipe) (n : Nat) : Nat :=
  p.ntrOwn.foldl (fun m q => if m < q.due then q.due else m)
    (p.inflight.foldl (fun m f => if m < f.due then f.due else m) (n + 1))

/-! ## Event queue (R108, R109) -/

/-- W0 of a completion record (Table 05-5). -/
def recW0 (tag source status queue fkind count : Nat) : W64 :=
  mkW [(tag % 65536, 48), (source % 16, 44), (status % 16, 40), (queue % 4, 38), (fkind % 16, 34),
    (if count < 2 ^ 32 then count else 2 ^ 32 - 1, 0)]

/-- Whether an event queue has room (R109). -/
def Ctx.evRoom (c : Ctx) : Bool := c.evq.length < 64 && c.owed.isEmpty

/-- Posts a record in a queue that has room. -/
def State.post (s : State) (w : At) (r : Rec) : State := s.updCtx w fun c => { c with evq := c.evq ++ [r] }

/-- Posts a record, or owes it while the queue is full (R109). -/
def State.postOrOwe (s : State) (w : At) (r : Rec) : State :=
  if (s.ctx w).evRoom then s.post w r else s.updCtx w fun c => { c with owed := c.owed ++ [r] }

/-! ## Mailbox towards the firmware, counters -/

/-- Sends a message to the firmware through a die's mailbox ring. -/
def State.mail (s : State) (die kind : Nat) (ws : List W64) : State :=
  s.updDie die fun d => { d with mail := d.mail ++ [⟨kind, ws⟩] }

/-- A sum that saturates below 2^n. -/
def satAdd (n a b : Nat) : Nat := if a + b < 2 ^ n then a + b else 2 ^ n - 1

/-- Draws a free value's number (log 5). -/
def State.draw (s : State) : Nat × State := (s.fresh, { s with fresh := s.fresh + 1 })

/-- A page request to the page service (R61, R66): ASID, address, access kind (0 read, 1 write, 2 execute). -/
def State.pageRequest (s : State) (die asid : Nat) (va : W64) (kind : Nat) : State :=
  s.mail die 2 [BitVec.ofNat 64 asid, va, BitVec.ofNat 64 kind]

/-- The context that an issued slot belongs to: the holder of the focus core (R364, log 1). -/
def State.cur (s : State) : Option At :=
  match s.focus with
  | .core c => (s.core c).holder.map fun k => ⟨c, k⟩
  | .tc _ => none

end Sys2Proof.Machine
end

