-- ==== Sys2Proof/Machine/Xlate.lean ====
section
/-! DEFINITION. Lines at their home slices, and translation: extents, TLBs, walks, permissions and keys (R47 to R61). -/

namespace Sys2Proof.Machine

/-! ## The physical map and homes (R47, R48) -/

/-- HBM (Table 03-1). -/
def isHbm (pa : Nat) : Bool := pa < 0xC000000000
/-- The device-register frames (Table 03-1). -/
def isDevFrame (pa : Nat) : Bool := 0x8000000000000 ≤ pa && pa < 0x8000100000000
/-- Host-homed memory (Table 03-1). -/
def isHostHomed (pa : Nat) : Bool := 0xC000000000000 ≤ pa && pa < 0x10000000000000
/-- A reserved range (Table 03-1). -/
def isReservedPa (pa : Nat) : Bool := !(isHbm pa || isDevFrame pa || isHostHomed pa)

/-- The HBM stack of a physical address (R47). -/
def hbmStack (pa : Nat) : Nat := pa / 2 ^ 36
/-- The channel of a physical address in its stack (R47). -/
def hbmChannel (pa : Nat) : Nat := pa / 256 % 32

/-- The home slice of a physical address (R48). -/
def homeSlice (pa : Nat) : Nat :=
  let l := pa / 128
  let h := l ^^^ (l >>> 17) ^^^ (l >>> 34)
  (h % 2 ^ 17) * 640 / 2 ^ 17

/-- Byte i of a line. -/
def lineByte (d : BitVec 1024) (i : Nat) : Byte := BitVec.ofNat 8 (d.toNat >>> (8 * i))

/-- A line from its bytes. -/
def lineOf (f : Nat → Byte) : BitVec 1024 := BitVec.ofNat 1024 (packElems 8 (fun i => (f i).toNat) 128)

/-- A line with byte i replaced. -/
def lineSet (d : BitVec 1024) (i : Nat) (b : Byte) : BitVec 1024 :=
  merge (BitVec.ofNat 1024 (255 <<< (8 * i))) d (BitVec.ofNat 1024 (b.toNat <<< (8 * i)))

/-- A byte at its home: the copy that the home slice holds of a host-homed line, else memory. -/
def State.homeByte (s : State) (pa : Nat) : Byte :=
  if isHostHomed pa then
    match tget? s.l2 (pa / 128) with
    | some l => lineByte l.data (pa % 128)
    | none => mget s.mem pa
  else mget s.mem pa

/-- n bytes at their homes. -/
def State.homeRead (s : State) (pa n : Nat) : List Byte := (List.range n).map fun i => s.homeByte (pa + i)

/-- A whole line at its home. -/
def State.homeLine (s : State) (line : Nat) : BitVec 1024 := lineOf fun i => s.homeByte (line * 128 + i)

/-- Whether the host path is coherent: CXL.cache is up (R390). -/
def State.coherentHost (s : State) : Bool := s.link.up && s.link.cxl

/-- The dirty bytes of a line, by address. -/
def dirtyBytes (line : Nat) (data : BitVec 1024) (dirty : BitVec 128) : List (Nat × Byte) :=
  ((List.range 128).filter fun i => dirty.getLsbD i).map fun i => (line * 128 + i, lineByte data i)

/-- A line of a home slice writes its dirty bytes to the host, if it is host-homed, and stays clean or, with `drop`, leaves the
slice and loses its scope record (Table 04-3, R339). HBM has the bytes of its own lines. -/
def State.hostBack (s : State) (line : Nat) (drop : Bool) : State :=
  match tget? s.l2 line with
  | none => s
  | some l =>
    let s := if isHostHomed (line * 128) then
        (dirtyBytes line l.data l.dirty).foldl (fun s p => { s with mem := mset s.mem p.1 p.2 }) s
      else s
    if drop then { s with l2 := tdel s.l2 line, homeRec := tdel s.homeRec line }
    else { s with l2 := tset s.l2 line { l with dirty := 0 } }

/-- Lines of one home slice (R11, Table 01-2): 512 KiB. -/
def sliceLines : Nat := 4096

/-- The lines that a home slice holds. -/
def State.inSlice (s : State) (slice : Nat) : Tab L2Line := s.l2.filter fun p => homeSlice (p.1 * 128) == slice

/-- The least recently used line of a list. -/
def lruOf {α : Type} (used : α → Nat) : List (Nat × α) → Option Nat
  | [] => none
  | p :: l => some (l.foldl (fun (b : Nat × Nat) q => if used q.2 < b.2 then (q.1, used q.2) else b) (p.1, used p.2)).1

/-- Makes room in a home slice that is full. -/
def State.sliceRoom (s : State) (slice : Nat) : State :=
  if (s.inSlice slice).length < sliceLines then s
  else match lruOf L2Line.used (s.inSlice slice) with
    | some v => s.hostBack v true
    | none => s

/-- Lists a line in its home slice, a host-homed one with RdOwn where it is to be written and with RdShared where it is read (R390); a
full slice gives up its least recently used line (log 46). -/
def State.homeList (s : State) (asid line : Nat) (own : Bool) : State :=
  match tget? s.l2 line with
  | some l => { s with l2 := tset s.l2 line { l with used := s.cycle, own := l.own || own } }
  | none =>
    let s := if s.l2.length < sliceLines then s else s.sliceRoom (homeSlice (line * 128))
    { s with l2 := tset s.l2 line { data := s.homeLine line, dirty := 0, asid := asid, used := s.cycle, own := own } }

/-- Writes a byte of a listed line, marking it dirty with its writer's ASID (R400); an HBM byte goes to HBM, whose old byte
stays beneath it. -/
def State.linePut (s : State) (asid pa : Nat) (b : Byte) (l : L2Line) : State :=
  let i := pa % 128
  let old := if isHostHomed pa then b else if l.dirty.getLsbD i then lineByte l.data i else mget s.mem pa
  let l' := { l with data := lineSet l.data i old, dirty := l.dirty ||| BitVec.ofNat 128 (1 <<< i), asid := asid }
  { s with l2 := tset s.l2 (pa / 128) l', mem := if isHostHomed pa then s.mem else mset s.mem pa b }

/-- Writes a byte at its home slice (R72, R390, R400). Without `alloc` a line that the slice does not hold takes no place there;
without CXL.cache a host-homed byte goes to the host. -/
def State.homePutAt (s : State) (alloc : Bool) (asid pa : Nat) (b : Byte) : State :=
  if isHostHomed pa && !s.coherentHost then { s with mem := mset s.mem pa b }
  else
    let s := if alloc then s.homeList asid (pa / 128) true else s
    match tget? s.l2 (pa / 128) with
    | some l => s.linePut asid pa b l
    | none => { s with mem := mset s.mem pa b }

/-- Writes a byte at its home slice, which lists the line. -/
def State.homePut (s : State) (asid pa : Nat) (b : Byte) : State := s.homePutAt true asid pa b

/-- Writes bytes at their home slices. -/
def State.homeWrite (s : State) (asid pa : Nat) : List Byte → State
  | [] => s
  | b :: bs => (s.homePut asid pa b).homeWrite asid (pa + 1) bs

/-- A 64-bit word at its home. -/
def State.homeW (s : State) (pa : Nat) : W64 := w64 (s.homeRead pa 8)

/-! ## Translation (R49 to R60) -/

/-- Why an access fails: a fault kind of Table 03-8, or a key (R57). -/
inductive Fail where
  | page (kind : Nat)
  | key
  deriving DecidableEq, Repr

/-- What an access needs (Table 03-6). -/
inductive Need where
  | load | store | rmw | fetch | none
  deriving DecidableEq, Repr

/-- A global-window address (R49). -/
def isGlobal (va : W64) : Bool := fld va 63 60 == 15
/-- A local address that fails R49. -/
def badCanon (va : W64) : Bool := !isGlobal va && fld va 63 56 != 0

/-- Words of an ASID table entry that a die's walker has in force (Table 03-3): those of the boot, V = 0 and GWEN = 0, until a
shoot-down of the whole space of the ASID (R51). -/
def State.asidEnt (s : State) (die asid : Nat) : W64 × W64 := tget (0, 0) (s.die die).asidTab asid

/-- A die's walker takes an ASID's entry from the table (R51). -/
def State.loadAsid (s : State) (die asid : Nat) : State :=
  let b := (s.die die).asidBase + 16 * asid
  s.updDie die fun d => { d with asidTab := tset d.asidTab asid (s.homeW b, s.homeW (b + 8)) }

/-- Reserved bits of a page table entry (Table 03-5). -/
def pteReserved (e : W64) : Bool := fld e 55 52 != 0 || fld e 7 4 != 0
/-- The fields that a 64 KiB group shares (R55). -/
def pteAttr (e : W64) : Nat := fld e 63 56 * 2 ^ 8 + fld e 11 8 * 2 ^ 4 + fld e 3 1

/-- A TLB entry of a leaf. -/
def leafEnt (asid : Nat) (va : Nat) (size : Nat) (e : W64) (pbase : Nat) : TlbEnt :=
  { asid := asid, global := bit e 8, vbase := va / size * size, size := size, pbase := pbase, pkey := fld e 63 59,
    okind := fld e 58 57, hbias := bit e 56, cpol := fld e 11 10, x := bit e 3, w := bit e 2, r := bit e 1 }

/-- The group of 16 level-0 leaves of R55: the fault, or the 64 KiB entry. -/
def groupEnt (asid va : Nat) (es : List W64) : Except Nat TlbEnt :=
  match es with
  | [] => .error 4
  | e0 :: _ =>
    let f0 := fld e0 51 12
    let same := es.zipIdx.all fun p => pteAttr p.1 == pteAttr e0 && fld p.1 51 12 == f0 + p.2 && !pteReserved p.1
    if !(same && f0 % 16 == 0) then .error 4
    else if !(es.all fun e => bit e 0) then .error 0
    else .ok (leafEnt asid va (2 ^ 16) e0 (f0 * 4096))

/-- Judges a leaf found at a level (R54, R55). -/
def State.leaf (s : State) (asid va lvl tbl : Nat) (e : W64) : Except Nat TlbEnt :=
  let size := 2 ^ (12 + 9 * lvl)
  let pb := fld e 51 12 * 4096
  if fld e 58 57 == 3 || fld e 11 10 == 3 || (bit e 2 && !bit e 1) || 3 ≤ lvl || (bit e 9 && lvl != 0) || pb % size != 0
  then .error 4
  else
    let i0 := va / 4096 % 512 / 16 * 16
    let r := if bit e 9 then groupEnt asid va ((List.range 16).map fun i => s.homeW (tbl + 8 * (i0 + i)))
      else .ok (leafEnt asid va size e pb)
    match r with
    | .error k => .error k
    | .ok t => if isReservedPa pb then .error 5 else .ok t

/-- The lines of the entries that a walk from a level down reads at their home slices (R52). -/
def State.walkReads (s : State) (die asid va : Nat) : Nat → Nat → List Nat
  | lvl, tbl =>
    let key := (asid * 8 + lvl) * 2 ^ 57 + va / 2 ^ (12 + 9 * lvl)
    let pa := tbl + 8 * (va / 2 ^ (12 + 9 * lvl) % 512)
    let hit := (s.die die).wcache.find? fun p => p.1 == key
    let e : W64 := match hit with
      | some p => BitVec.ofNat 64 p.2
      | none => s.homeW pa
    let below := if !bit e 0 || pteReserved e || fld e 3 1 != 0 || bit e 9 || !isHbm (fld e 51 12 * 4096) then []
      else match lvl with
        | 0 => []
        | l + 1 => s.walkReads die asid va l (fld e 51 12 * 4096)
    if hit.isSome then below else pa / 128 :: below

/-- The walk from a level down (R52 to R55), with the table pointers it passed. The fields of a table pointer that only a leaf
has are not looked at: R53 says that they are 0, and no rule says what a walk does otherwise (log 47). -/
def State.walkFrom (s : State) (die asid va : Nat) : Nat → Nat → List (Nat × Nat) → Except Nat TlbEnt × List (Nat × Nat)
  | lvl, tbl, seen =>
    let key := (asid * 8 + lvl) * 2 ^ 57 + va / 2 ^ (12 + 9 * lvl)
    let pa := tbl + 8 * (va / 2 ^ (12 + 9 * lvl) % 512)
    let e : W64 := match (s.die die).wcache.find? fun p => p.1 == key with
      | some p => BitVec.ofNat 64 p.2
      | none => s.homeW pa
    if !bit e 0 then (.error 0, seen)
    else if pteReserved e then (.error 4, seen)
    else if fld e 3 1 != 0 then (s.leaf asid va lvl tbl e, seen)
    else if bit e 9 || !isHbm (fld e 51 12 * 4096) then (.error 4, seen)
    else match lvl with
      | 0 => (.error 4, seen)
      | l + 1 => s.walkFrom die asid va l (fld e 51 12 * 4096) ((key, e.toNat) :: seen)

/-- A walk of an ASID's tables (R51, R52). -/
def State.walk (s : State) (die asid va : Nat) : Except Nat TlbEnt × List (Nat × Nat) :=
  let e := (s.asidEnt die asid).1
  if !bit e 0 || !isHbm (fld e 51 12 * 4096) then (.error 4, []) else s.walkFrom die asid va 4 (fld e 51 12 * 4096) []

/-- Whether a TLB entry maps an address of an ASID (R60). -/
def TlbEnt.hits (e : TlbEnt) (asid va : Nat) : Bool :=
  (e.global || e.asid == asid) && e.vbase ≤ va && va < e.vbase + e.size

/-- The lines that a lookup behind a die's last-level TLB reads. -/
def State.walkLines (s : State) (die asid va : Nat) : List Nat :=
  let e := (s.asidEnt die asid).1
  if ((s.die die).tlb.any fun t => t.hits asid va) || !bit e 0 || !isHbm (fld e 51 12 * 4096) then []
  else s.walkReads die asid va 4 (fld e 51 12 * 4096)

/-- The translation that an entry gives. -/
def TlbEnt.xl (e : TlbEnt) (va : Nat) : Xl :=
  { pa := e.pbase + (va - e.vbase), pkey := e.pkey, okind := e.okind, cpol := e.cpol, hbias := e.hbias, x := e.x,
    w := e.w, r := e.r, ebase := e.vbase, esize := e.size, eglob := e.global }

/-- Whether n bytes from va lie in an extent (R59, Table 03-7). -/
def Extent.covers (e : Extent) (va n : Nat) : Bool :=
  let b := fld e.w0 55 12 * 4096
  bit e.w1 0 && b ≤ va && va + n ≤ b + fld e.w1 35 4 * 4096

/-- The translation that an extent gives. -/
def Extent.xl (e : Extent) (va : Nat) : Xl :=
  { pa := fld e.w2 51 12 * 4096 + (va - fld e.w0 55 12 * 4096), pkey := fld e.w1 63 59, okind := fld e.w1 58 57,
    cpol := fld e.w1 55 54, hbias := bit e.w1 56, x := bit e.w1 3, w := bit e.w1 2, r := bit e.w1 1,
    ebase := fld e.w0 55 12 * 4096, esize := fld e.w1 35 4 * 4096, eglob := false }

/-- The lowest-numbered extent that covers an access (R59). -/
def Ctx.extentFor (c : Ctx) (va n : Nat) : Option Extent := (c.extents.find? fun p => p.2.covers va n).map (·.2)

/-- A lookup of the die's last-level TLB and walker (R60). -/
def State.dieXlate (s : State) (die asid va : Nat) : Except Nat Xl :=
  match (s.die die).tlb.find? fun e => e.hits asid va with
  | some e => .ok (e.xl va)
  | none => match (s.walk die asid va).1 with
    | .ok e => .ok (e.xl va)
    | .error k => .error k

/-- A lookup of the core's L1 TLB and, behind it, the die's (R60). -/
def State.coreXlate (s : State) (core asid va : Nat) : Except Nat Xl :=
  match (s.core core).tlb.find? fun e => e.hits asid va with
  | some e => .ok (e.xl va)
  | none => s.dieXlate (dieOf core) asid va

/-- A key's two rights bits (R57). -/
def keyRight (kperm : W64) (key : Nat) : Nat := fld kperm (2 * key + 1) (2 * key)

/-- The check of permission and key (Table 03-6, R57). -/
def checkNeed (x : Xl) (need : Need) (kperm : W64) : Option Fail :=
  let right := keyRight kperm x.pkey
  match need with
  | .load => if !x.r then some (.page 1) else if right == 1 || right == 3 then none else some .key
  | .store => if !x.w then some (.page 1) else if right == 3 then none else some .key
  | .rmw => if !(x.r && x.w) then some (.page 1) else if right == 3 then none else some .key
  | .fetch => if x.x then none else some (.page 1)
  | .none => none

/-- A device-register frame is SO and uncached whatever its leaf says (Table 03-1). -/
def Xl.ruled (x : Xl) : Xl := if isDevFrame x.pa then { x with okind := 0, cpol := 2 } else x

/-- A frame judged after translation: reserved frames fault BADTARGET (R47). -/
def judged (x : Xl) (need : Need) (kperm : W64) : Except Fail Xl :=
  if isReservedPa x.pa then .error (.page 5)
  else match checkNeed x need kperm with
    | some f => .error f
    | none => .ok x.ruled

/-- Translation of a local address for a context: the extent `ext` that covers the whole access, else the TLB path. -/
def State.xlate (s : State) (w : At) (asid : Nat) (ext : Option Extent) (va : W64) (need : Need) (kperm : W64) :
    Except Fail Xl :=
  if badCanon va then .error (.page 2)
  else match ext with
  | some e => judged (e.xl va.toNat) need kperm
  | none => match s.coreXlate w.core asid va.toNat with
    | .error k => .error (.page k)
    | .ok x => judged x need kperm

/-- The units of a die that translate: the dispatch engine and the step sequencer through a cache of their own, the transport
through the die's TLB (R60). -/
inductive DieUnit where
  | dispatch | stepSeq | transport
  deriving DecidableEq, Repr

/-- The translation cache of a unit. -/
def Die.cacheOf (d : Die) : DieUnit → List TlbEnt
  | .dispatch => d.dtc
  | .stepSeq => d.stc
  | .transport => []

/-- A lookup of a unit's translation cache and, behind it, the die's TLB and walker (R60). -/
def State.unitLook (s : State) (u : DieUnit) (die asid va : Nat) : Except Nat Xl :=
  match ((s.die die).cacheOf u).find? fun e => e.hits asid va with
  | some e => .ok (e.xl va)
  | none => s.dieXlate die asid va

/-- Translation of a local address for a unit of a die (R60). Across a fenced host link it fails with a kind that the spec
does not state (R398). -/
def State.unitLocal (s : State) (u : DieUnit) (die asid : Nat) (va : W64) (need : Need) (kperm : W64) : Except Fail Xl :=
  if badCanon va then .error (.page 2)
  else match s.unitLook u die asid va.toNat with
    | .error k => .error (.page k)
    | .ok x => match judged x need kperm with
      | .error f => .error f
      | .ok x => if isHostHomed x.pa && s.link.fenced then .error (.page Config.fencedKind.toNat) else .ok x

/-- Translation of an address for an access that a unit makes on its own account: it reaches neither the global window nor a
device register, and fails GLOBAL or BADTARGET there (log 24). -/
def State.unitXlate (s : State) (u : DieUnit) (die asid : Nat) (va : W64) (need : Need) (kperm : W64) : Except Fail Xl :=
  if isGlobal va then .error (.page 3)
  else match s.unitLocal u die asid va need kperm with
    | .error f => .error f
    | .ok x => if isDevFrame x.pa then .error (.page 5) else .ok x

/-- Installs what a die's lookup finds (R60): a walk that faults installs nothing. -/
def State.dieFill (s : State) (die asid va : Nat) : State :=
  if (s.die die).tlb.any fun e => e.hits asid va then s
  else match s.walk die asid va with
    | (.ok e, seen) => s.updDie die fun d =>
        { d with tlb := (e :: d.tlb).take 4096
                 wcache := (seen.filter (fun p => !(d.wcache.any fun q => q.1 == p.1)) ++ d.wcache).take 256 }
    | (.error _, _) => s

/-- Installs what a unit's lookup finds in its cache of 32 entries (R60). -/
def State.unitFill (s : State) (u : DieUnit) (die asid va : Nat) : State :=
  if ((s.die die).cacheOf u).any fun e => e.hits asid va then s
  else
    let s := s.dieFill die asid va
    match (s.die die).tlb.find? fun e => e.hits asid va with
    | none => s
    | some e => s.updDie die fun d => match u with
      | .dispatch => { d with dtc := (e :: d.dtc).take 32 }
      | .stepSeq => { d with stc := (e :: d.stc).take 32 }
      | .transport => d

/-- Installs what a core's lookup finds (R60). -/
def State.coreFill (s : State) (core asid va : Nat) : State :=
  if (s.core core).tlb.any fun e => e.hits asid va then s
  else
    let s := s.dieFill (dieOf core) asid va
    match (s.die (dieOf core)).tlb.find? fun e => e.hits asid va with
    | some e => s.updCore core fun k => { k with tlb := (e :: k.tlb).take 128 }
    | none => s

/-- The issuing-side checks of a global address (R50): whether it faults GLOBAL. -/
def State.globalFault (s : State) (die asid : Nat) (va : W64) : Bool :=
  let e := s.asidEnt die asid
  fld e.2 12 0 < fld va 59 47 || !bit e.1 1

/-- Whether a global address names this device (R50). -/
def State.globalSelf (s : State) (die asid : Nat) (va : W64) : Bool := fld va 59 47 == fld (s.asidEnt die asid).2 25 13

/-- The local address that an offset of the window has on this device (R50). -/
def State.windowVa (s : State) (die asid : Nat) (off : Nat) : W64 :=
  BitVec.ofNat 64 (fld (s.asidEnt die asid).2 55 47 * 2 ^ 47 + off % 2 ^ 47)

/-- The parts of n bytes from va, split at page boundaries (R332). -/
def pageParts (va : W64) (n : Nat) : List (W64 × Nat) :=
  let r := 4096 - va.toNat % 4096
  if n ≤ r then [(va, n)] else [(va, r), (va + BitVec.ofNat 64 r, n - r)]

end Sys2Proof.Machine
end

