-- ==== Sys2Proof/Machine/Cache.lean ====
section
/-! DEFINITION. The caches of a cluster, cask lines, host bias, the places of performance and the scope records
(R71 to R85, R327, R338 to R341, R387, R388). -/

namespace Sys2Proof.Machine

/-! ## Cluster cache and L1 data caches (R71 to R74) -/

/-- The ways of a set that pinned cask lines occupy: slot j way 15 − j (R80). -/
def Clu.pinnedWays (c : Clu) (set : Nat) : List Nat :=
  (c.cask.filter fun p => p.1 % 16384 == set).map fun p => 15 - p.1 / 16384

/-- Lines of a set that the cluster cache holds. -/
def Clu.inSet (c : Clu) (set : Nat) : List (Nat × CcLine) := c.cc.filter fun p => p.1 % 16384 == set

/-- The next use number of a set (R72: least recently used). -/
def Clu.nextUse (c : Clu) (set : Nat) : Nat := (c.inSet set).foldl (fun m p => max m p.2.used) 0 + 1

/-- The cores of a cluster that are in use. -/
def State.coresOf (s : State) (clu : Nat) : List Nat := (s.cores.filter fun p => clusterOf p.1 == clu).map (·.1)

/-- Changes every core of a cluster. -/
def State.updCluCores (s : State) (clu : Nat) (f : Nat → Core → Core) : State :=
  { s with cores := s.cores.map fun p => if clusterOf p.1 = clu then (p.1, f p.1 p.2) else p }

/-- An access at the home slices uses up the answered snoops of its lines (R387), and what a flip of their pages was for has been
done (R388). -/
def State.useSnoops (s : State) (lines : List Nat) : State :=
  if s.link.snoops.isEmpty && s.link.grants.isEmpty then s
  else { s with link := { s.link with
    snoops := s.link.snoops.filter fun p => !(p.2.done && lines.contains p.1)
    grants := s.link.grants.filter fun p => !(lines.any fun l => l / 32 == p.1) } }

/-- Writes a cluster's dirty bytes of a line home (R74); its copies stay and become clean (R76). A host-homed line takes no bytes
while the host link is fenced: they are dropped (R398, log 62). -/
def State.flushLine (s : State) (clu line : Nat) : State :=
  match tget? (s.clu clu).cc line with
  | none => s
  | some l =>
    let s := if l.dirty = 0 || (isHostHomed (line * 128) && s.link.fenced) then s
      else (dirtyBytes line l.data l.dirty).foldl (fun s p => s.homePut l.asid p.1 p.2) (s.useSnoops [line])
    let s := s.updClu clu fun c => { c with cc := tset c.cc line { l with dirty := 0 } }
    s.updCluCores clu fun _ k => match tget? k.l1 line with
      | none => k
      | some x => { k with l1 := tset k.l1 line { x with dirty := 0, st := if x.st == .m then .e else x.st } }

/-- Writes a line home and drops every copy of it in the cluster (R75, R76). -/
def State.dropLine (s : State) (clu line : Nat) : State :=
  let s := s.flushLine clu line
  let s := s.updClu clu fun c => { c with cc := tdel c.cc line }
  s.updCluCores clu fun _ k => { k with l1 := tdel k.l1 line }

/-- A way of a set that holds neither a line nor a pinned cask line: the lowest-numbered (log 42). -/
def Clu.freeWay (c : Clu) (set : Nat) : Option Nat :=
  (List.range 16).find? fun w => !((c.pinnedWays set).contains w) && !((c.inSet set).any fun p => p.2.way == w)

/-- Makes room in a set for one line, leaving out pinned ways: its way, a free one or that of the least recently used line
(R72, R80). -/
def State.roomFor (s : State) (clu line : Nat) : Option Nat × State :=
  let c := s.clu clu
  match c.freeWay (line % 16384) with
  | some w => (some w, s)
  | none => match lruOf CcLine.used (c.inSet (line % 16384)) with
    | none => (none, s)
    | some v => ((tget? c.cc v).map (·.way), s.dropLine clu v)

/-- Brings a line into the cluster cache, with the home's scope record (R327, R339); a host-homed line comes through its home slice,
which keeps it (R390). -/
def State.fillLine (s : State) (clu line : Nat) : State :=
  let use := (s.clu clu).nextUse (line % 16384)
  match tget? (s.clu clu).cc line with
  | some l => s.updClu clu fun c => { c with cc := tset c.cc line { l with used := use } }
  | none => match s.roomFor clu line with
    | (none, s) => s
    | (some w, s) =>
      let s := s.useSnoops [line]
      let s := if isHostHomed (line * 128) && s.coherentHost then s.homeList 0 line false else s
      let l : CcLine := { way := w, data := s.homeLine line, dirty := 0, asid := 0, used := use, sync := tget? s.homeRec line }
      s.updClu clu fun c => { c with cc := tset c.cc line l }

/-- Lists a line in a core's L1 data cache, dropping the least recently used of a full set (R71, R72). -/
def Core.allocL1 (k : Core) (line : Nat) (x : L1Line) : Core :=
  let set := k.l1.filter fun p => p.1 % 512 == line % 512
  let use := set.foldl (fun m p => max m p.2.used) 0 + 1
  let k := if set.length < 12 || (tget? k.l1 line).isSome then k
    else match lruOf L1Line.used set with
      | none => k
      | some v => { k with l1 := tdel k.l1 v }
  { k with l1 := tset k.l1 line { x with used := use } }

/-- A clean line of an L1 data cache. -/
def L1Line.clean (st : Mesi) (asid : Nat) : L1Line :=
  { dirty := 0, under := 0, udirty := 0, asid := asid, st := st, used := 0 }

/-- A core's read of a line: both copies of a line held in M end in S, its dirty bytes in the cluster cache (R73). -/
def State.l1Read (s : State) (core line asid : Nat) : State :=
  let clu := clusterOf core
  let others := (s.coresOf clu).any fun c => c != core && (tget? (s.core c).l1 line).isSome
  let s := if others then s.updCluCores clu fun c k => if c = core then k else match tget? k.l1 line with
      | none => k
      | some x => { k with l1 := tset k.l1 line { x with dirty := 0, st := .s } } else s
  s.updCore core fun k => match tget? k.l1 line with
    | some x => k.allocL1 line { x with st := if others then .s else x.st }
    | none => k.allocL1 line (L1Line.clean (if others then .s else .e) asid)

/-- A core's write of byte i of a line: every other L1 copy is invalidated and its own is M (R73). -/
def State.l1Write (s : State) (core line asid i : Nat) : State :=
  let s := s.updCluCores (clusterOf core) fun c k => if c = core then k else { k with l1 := tdel k.l1 line }
  let cc := tget? (s.clu (clusterOf core)).cc line
  s.updCore core fun k =>
    let x := (tget? k.l1 line).getD (L1Line.clean .m asid)
    let b := BitVec.ofNat 128 (1 <<< i)
    let x := if x.dirty.getLsbD i then x else
      { x with dirty := x.dirty ||| b
               under := lineSet x.under i ((cc.map fun l => lineByte l.data i).getD 0)
               udirty := if (cc.map fun l => l.dirty.getLsbD i).getD false then x.udirty ||| b else x.udirty &&& ~~~b }
    k.allocL1 line { x with st := .m, asid := asid }

/-- The lines that n bytes touch. -/
def linesOf (pa n : Nat) : List Nat :=
  if n = 0 then [] else (List.range ((pa + n - 1) / 128 - pa / 128 + 1)).map fun i => pa / 128 + i

/-- A byte as the cluster sees it (R73). -/
def State.cluByte (s : State) (clu pa : Nat) : Byte :=
  match tget? (s.clu clu).cc (pa / 128) with
  | some l => lineByte l.data (pa % 128)
  | none => s.homeByte pa

/-- A read of the cluster cache, with a copy in a core's L1 when one is named (R72). -/
def State.cluRead (s : State) (clu : Nat) (core : Option Nat) (asid pa n : Nat) : List Byte × State :=
  let s := (linesOf pa n).foldl (fun s l =>
    let s := s.fillLine clu l
    match core with
    | some c => s.l1Read c l asid
    | none => s) s
  ((List.range n).map fun i => s.cluByte clu (pa + i), s)

/-- A write of one byte at the cluster cache. -/
def State.cluPut (s : State) (clu asid pa : Nat) (b : Byte) : State :=
  match tget? (s.clu clu).cc (pa / 128) with
  | some l =>
    let l' : CcLine := { l with data := lineSet l.data (pa % 128) b,
                                dirty := l.dirty ||| BitVec.ofNat 128 (1 <<< (pa % 128)), asid := asid }
    s.updClu clu fun c => { c with cc := tset c.cc (pa / 128) l' }
  | none => s.homePut asid pa b

/-- A write of listed bytes at the cluster cache, through a core's L1 when one is named (R72, R73). -/
def State.cluWrite (s : State) (clu : Nat) (core : Option Nat) (asid : Nat) (bs : List (Nat × Byte)) : State :=
  bs.foldl (fun s p =>
    let s := s.fillLine clu (p.1 / 128)
    let s := match core with
      | some c => s.l1Write c (p.1 / 128) asid (p.1 % 128)
      | none => s.updCluCores clu fun _ k => { k with l1 := tdel k.l1 (p.1 / 128) }
    s.cluPut clu asid p.1 p.2) s

/-! ## Cask lines (R80 to R84) -/

/-- Counts a cask access that found no line pinned under its ASID (R84). An access of several lines counts once, with its own
first offset, where any line of it is not pinned (log 48). -/
def Clu.miss (c : Clu) (off : Nat) : Clu :=
  { c with missCnt := if c.missCnt = BitVec.allOnes 32 then c.missCnt else c.missCnt + 1
           missOff := if c.missAny then c.missOff else BitVec.ofNat 25 off
           missAny := true }

/-- Reads cask bytes for an ASID; a line not pinned for it reads zeros (R84). -/
def State.caskRead (s : State) (clu asid off n : Nat) : List Byte × State :=
  let c := s.clu clu
  let bs := (List.range n).map fun i => match tget? c.cask ((off + i) / 128) with
    | some k => if k.asid = asid then lineByte k.data ((off + i) % 128) else 0
    | none => 0
  let missed := (linesOf off n).any fun l => match tget? c.cask l with
    | some k => k.asid != asid
    | none => true
  (bs, if missed then s.updClu clu (Clu.miss · off) else s)

/-- Writes cask bytes for an ASID; writes to a line not pinned for it are dropped (R84). -/
def State.caskWrite (s : State) (clu asid off : Nat) (bs : List Byte) : State :=
  let missed := (linesOf off bs.length).any fun l => match tget? (s.clu clu).cask l with
    | some k => k.asid != asid
    | none => true
  let s := bs.zipIdx.foldl (fun s p =>
    match tget? (s.clu clu).cask ((off + p.2) / 128) with
    | some k =>
      let k' : Cask := { k with data := lineSet k.data ((off + p.2) % 128) p.1 }
      if k.asid = asid then s.updClu clu fun c => { c with cask := tset c.cask ((off + p.2) / 128) k' } else s
    | none => s) s
  if missed then s.updClu clu (Clu.miss · off) else s

/-! ## Host bias (R386 to R388) -/

/-- Whether a page of HBM is in host bias. With no CXL host, or no table placed, every page is in device bias (log 20). -/
def State.hostBias (s : State) (pa : Nat) : Bool :=
  s.coherentHost && isHbm pa && s.link.biasbase != 0 &&
    (mget s.mem (s.link.biasbase.toNat + pa / 2 ^ 15)).getLsbD (pa / 4096 % 8)

/-- Writes a page's bias bit. -/
def State.setBias (s : State) (pa : Nat) (v : Bool) : State :=
  let a := s.link.biasbase.toNat + pa / 2 ^ 15
  let m : Byte := BitVec.ofNat 8 (1 <<< (pa / 4096 % 8))
  let b := mget s.mem a
  { s with mem := mset s.mem a (if v then b ||| m else b &&& ~~~m) }

/-- What a device access to one line of HBM waits for at its home slice: nothing, a flip of its page, or a snoop of the line, BISnpInv
for a write and BISnpData for a read, which it starts (R387, R388). -/
def State.biasLine (s : State) (hb write : Bool) (line : Nat) : Option (State → State) :=
  let page := line / 32
  let held := match tget? s.link.holds page with
    | some t => s.cycle < t
    | none => false
  let snoop := fun (s : State) => { s with link := { s.link with snoops := tset s.link.snoops line ⟨write, false⟩ } }
  if (tget? s.link.flips page).isSome then some id
  else if !s.hostBias (line * 128) then none
  else if hb || held then
    match tget? s.link.snoops line with
    | none => some snoop
    | some q => if !q.done then some id else if q.inv || !write then none else some snoop
  else some fun s => { s with link := { s.link with flips := tset s.link.flips page 32 } }

/-- What an access to some lines at their home slices waits for. -/
def State.biasLines (s : State) (hb write : Bool) (lines : List Nat) : Option (State → State) :=
  if s.coherentHost then lines.findSome? fun l => s.biasLine hb write l else none

/-- What an access that is performed at the home slices waits for, on every line that it touches. -/
def State.homeWait (s : State) (x : Xl) (write : Bool) (n : Nat) : Option (State → State) :=
  s.biasLines x.hbias write (linesOf x.pa n)

/-- The line that a cluster cache gives up to take in another, if it has dirty bytes to write home (R72, R74). -/
def State.victimOf (s : State) (clu line : Nat) : Option Nat :=
  let c := s.clu clu
  if (c.freeWay (line % 16384)).isSome then none
  else (lruOf CcLine.used (c.inSet (line % 16384))).filter fun v => match tget? c.cc v with
    | some l => l.dirty != 0
    | none => false

/-- What the walk of a local address waits for: its entries' pages, which no leaf's HBIAS speaks for (R52, R387). -/
def State.walkWait (s : State) (die asid : Nat) (va : W64) : Option (State → State) :=
  if s.coherentHost then s.biasLines false false (s.walkLines die asid va.toNat) else none

/-- What a core's translation of n bytes waits for: an extent or an entry of its TLB needs no walk (R59, R60). -/
def State.coreWalkWait (s : State) (core asid : Nat) (ext : Option Extent) (va : W64) (n : Nat) : Option (State → State) :=
  if !s.coherentHost || ext.isSome then none
  else (pageParts va n).findSome? fun p =>
    if badCanon p.1 || (s.core core).tlb.any (fun e => e.hits asid p.1.toNat) then none else s.walkWait (dieOf core) asid p.1

/-- What a unit's translation waits for (R60). -/
def State.unitWalkWait (s : State) (u : DieUnit) (die asid : Nat) (va : W64) : Option (State → State) :=
  if !s.coherentHost || badCanon va || ((s.die die).cacheOf u).any (fun e => e.hits asid va.toNat) then none
  else s.walkWait die asid va

/-! ## Places and scope records (R327, R338 to R340) -/

/-- Non-coherent host path (R390). -/
def State.nonCoherent (s : State) (x : Xl) : Bool := isHostHomed x.pa && (x.hbias || !s.coherentHost)

/-- Whether an atomic, by its operation code of R465, has no AtomicOp on the non-coherent host path (R392, Table 17-2). -/
def State.noAtomicOp (s : State) (x : Xl) (op : Nat) : Bool :=
  s.nonCoherent x && (!s.link.aoc || op == 1 || op == 2 || op == 4 || op == 5)

/-- Whether an access of a scope is performed at the cluster cache: CPOL 00 and scope below die (Table 14-1). -/
def State.atCluster (s : State) (x : Xl) (wide : Bool) : Bool :=
  x.cpol == 0 && !wide && !isDevFrame x.pa && !s.nonCoherent x

/-- What an access waits for at its place, by the bias of the pages whose home slices it reaches (R387): in its cluster the lines it
brings in and those that they push out, at the home slice its own lines and, before a wide access, its cluster's dirty bytes of them. -/
def State.placeWait (s : State) (clu : Nat) (x : Xl) (wide write : Bool) (n : Nat) : Option (State → State) :=
  if !s.coherentHost || isDevFrame x.pa || s.nonCoherent x then none
  else
    let lines := linesOf x.pa n
    if s.atCluster x wide then
      let out := lines.filter fun l => (tget? (s.clu clu).cc l).isNone
      (s.biasLines x.hbias false out).or (s.biasLines false true (out.filterMap (s.victimOf clu)))
    else
      let dirty := wide && lines.any fun l => match tget? (s.clu clu).cc l with
        | some c => c.dirty != 0
        | none => false
      s.biasLines x.hbias (write || dirty) lines

/-- A read of translated bytes at their home: at the host on the non-coherent path, which no home slice observes (R390, R459); else at
the home slice, which keeps a host-homed line but of CPOL 10, with RdOwn for an atomic (R72, R390). -/
def State.homeAccess (s : State) (x : Xl) (asid n : Nat) (own : Bool) : List Byte × State :=
  if s.nonCoherent x then (mread s.mem x.pa n, s)
  else
    let lines := linesOf x.pa n
    let s := s.useSnoops lines
    (s.homeRead x.pa n,
      if isHostHomed x.pa && x.cpol != 2 then lines.foldl (fun s l => s.homeList asid l own) s else s)

/-- Writes of listed bytes at the home slices, or at the host on the non-coherent path, where a copy that a slice holds stays as it is
(Table 14-1, R459). -/
def State.homePuts (s : State) (x : Xl) (asid : Nat) (bs : List (Nat × Byte)) : State :=
  if s.nonCoherent x then { s with mem := mwriteCells s.mem bs }
  else bs.foldl (fun s p => s.homePutAt (x.cpol != 2) asid p.1 p.2) (s.useSnoops (bs.map fun p => p.1 / 128))

/-- The domain of an access (Table 14-3). -/
def domOf (w : At) : Nat → Dom
  | 0 => .ctx w.core w.ctx | 1 => .core w.core | 2 => .clu (clusterOf w.core) | 3 => .die (dieOf w.core)
  | 4 => .dev | _ => .sys

/-- The core, cluster and die that a domain lies in, as far as it has them. -/
def Dom.within : Dom → Dom → Bool
  | .sys, .sys => true
  | .sys, _ => false
  | _, .sys => true
  | .dev, .dev => true
  | .dev, _ => false
  | _, .dev => true
  | .die d, .die e => d == e
  | .die _, _ => false
  | .clu c, .die e => dieOfClu c == e
  | .clu c, .clu e => c == e
  | .clu _, _ => false
  | .core c, .die e => dieOf c == e
  | .core c, .clu e => clusterOf c == e
  | .core c, .core e => c == e
  | .core _, _ => false
  | .ctx c _, .die e => dieOf c == e
  | .ctx c _, .clu e => clusterOf c == e
  | .ctx c _, .core e => c == e
  | .ctx c n, .ctx e m => c == e && n == m

/-- The record at the place of a synchronisation access; a copy not in the cluster would fill with the home's (R339). -/
def State.recAt (s : State) (clu : Nat) (cluster : Bool) (line : Nat) : Option Dom :=
  if cluster then match tget? (s.clu clu).cc line with
    | some l => l.sync
    | none => tget? s.homeRec line
  else tget? s.homeRec line

/-- Whether the scope check passes: the access's domain includes the record (R340). Accesses to device frames and on the
non-coherent path are not checked (R339). -/
def State.scopeOk (s : State) (clu : Nat) (x : Xl) (wide : Bool) (d : Dom) : Bool :=
  if isDevFrame x.pa || s.nonCoherent x then true
  else match s.recAt clu (s.atCluster x wide) (x.pa / 128) with
    | none => true
    | some r => r.within d

/-- Sets the record after a check that passed (R339). At a home slice the line is held there with it, but on a CPOL 10 page, which
allocates nowhere (R72). -/
def State.setRec (s : State) (clu : Nat) (x : Xl) (wide : Bool) (d : Dom) : State :=
  if isDevFrame x.pa || s.nonCoherent x then s
  else if s.atCluster x wide then
    let s := s.fillLine clu (x.pa / 128)
    match tget? (s.clu clu).cc (x.pa / 128) with
    | some l => s.updClu clu fun c => { c with cc := tset c.cc (x.pa / 128) { l with sync := some d } }
    | none => s
  else
    let s := if x.cpol = 2 then s else s.homeList 0 (x.pa / 128) false
    { s with homeRec := tset s.homeRec (x.pa / 128) d }

/-! ## CFLUSH and CINV (R76 to R79) -/

/-- Scope codes die, dev and sys. -/
def wideScope (scope : Nat) : Bool := 3 ≤ scope

/-- What a CFLUSH or CINV of a line waits for: the bias of the page that its dirty bytes go to (R387). -/
def State.flushWait (s : State) (clu : Nat) (x : Xl) (scope : Nat) : Option (State → State) :=
  let dirty := match tget? (s.clu clu).cc (x.pa / 128) with
    | some l => l.dirty != 0
    | none => false
  if wideScope scope && x.cpol == 0 && dirty then s.biasLines x.hbias true [x.pa / 128] else none

/-- CFLUSH or CINV of one line (Table 04-3); a CINV also clears the home's record (R339). -/
def State.flushOne (s : State) (clu : Nat) (x : Xl) (scope : Nat) (inv : Bool) : State :=
  let line := x.pa / 128
  if !wideScope scope then s
  else
    let s := if x.cpol = 0 then (if inv then s.dropLine clu line else s.flushLine clu line) else s
    let s := if inv then { s with homeRec := tdel s.homeRec line } else s
    if scope = 5 && isHostHomed x.pa then s.hostBack line inv else s

end Sys2Proof.Machine
end

