-- ==== Sys2Proof/Machine/Registers.lean ====
section
/-! DEFINITION. The device registers of the frames of R47: what a read of each returns (Tables 04-4, 04-5, 06-9, 07-2,
15-11, 17-3, 17-4, 19-3; R369, R370, R401, R407). -/

namespace Sys2Proof.Machine

/-- Temperature of a die in 1/8 °C, 16 bits. -/
def State.tempOf (s : State) (d : Nat) : Nat := (s.die d).temp % 65536

/-- The value of a device register (R6); instruction memory is read by fetch only (Table 07-1). -/
def State.regValue (s : State) : DevReg → W64
  | .caskctl c => (s.clu c).caskctl
  | .caskmiss c => mkW [((s.clu c).missCnt.toNat, 32), ((s.clu c).missOff.toNat, 0)]
  | .tcctl d => let t := (s.die d).tc; mkW [(t.start.toNat, 16), (if t.state = 1 then 1 else 0, 0)]
  | .tcstat d =>
    let t := (s.die d).tc
    mkW [(t.state, 62), (t.cause, 52), (if t.state = 1 then t.pc.toNat else t.statPc.toNat, 32), (t.queue.length, 0)]
  | .tccnt d => let t := (s.die d).tc; mkW [(t.evlost, 32), (t.defaults, 0)]
  | .tcwdog d => BitVec.ofNat 64 ((s.die d).tc.limit % 2 ^ 32)
  | .txdstat d => mkW [(if (s.die d).tx.mcdeg then 1 else 0, 1)]
  | .txcnt0 d => mkW [((s.die d).tx.unsupp, 32), ((s.die d).tx.malform, 0)]
  | .txcnt1 d => mkW [((s.die d).tx.stale, 32), ((s.die d).tx.duptag, 0)]
  | .txcnt2 d => mkW [((s.die d).tx.overred, 32), ((s.die d).tx.mcdegr, 0)]
  | .trbase d => (s.die d).trace.base
  | .trctl d => (s.die d).trace.ctl
  | .trhead d => BitVec.ofNat 64 (s.die d).trace.head
  | .trtail d => BitVec.ofNat 64 (s.die d).trace.tail
  | .dcnt d k => BitVec.ofNat 64 (tget 0 (s.die d).trace.dcnt k)
  | .hlstat =>
    let l := s.link
    mkW [(l.up.toNat, 3), (l.cxl.toNat, 2), (l.fenced.toNat, 1), (l.downseen.toNat, 0)]
  | .hlctl => mkW [(s.link.aoc.toNat, 1)]
  | .biasbase => s.link.biasbase
  | .biascnt => mkW [(s.link.flipd, 32), (s.link.fliph, 0)]
  | .orphbase => s.link.orphbase
  | .orphcnt => mkW [(s.link.lost, 32), (s.link.head, 0)]
  | .vicfg v w => tget 0 s.link.vicfg (8 * v + w)
  | .errcnt d u => BitVec.ofNat 64 (tget 0 (s.die d).errcnt u)
  | .errlost d => BitVec.ofNat 64 ((s.die d).errlost % 2 ^ 32)
  | .fwctl => s.board.fwctl
  | .fwstat => mkW [(s.board.fwver.toNat, 32), (s.board.fwresult % 16, 0)]
  | .fwfloor0 => mkW [(tget 0 s.board.floors 1, 32), (tget 0 s.board.floors 0, 0)]
  | .fwfloor1 => mkW [(tget 0 s.board.floors 3, 32), (tget 0 s.board.floors 2, 0)]
  | .fwfloorset => 0
  | .pwrctl =>
    let b := s.board
    if b.znfM then mkW [(b.limit, 32), (b.gate % 16, 2), (b.pstate % 4, 0)] else mkW [(b.gate % 16, 2)]
  | .telpwr => if s.board.znfM then mkW [(s.board.avg % 2 ^ 32, 32), (s.board.peak % 2 ^ 31, 0)] else 0
  | .teltemp => mkW [(s.tempOf 3, 48), (s.tempOf 2, 32), (s.tempOf 1, 16), (s.tempOf 0, 0)]
  | .telthr => BitVec.ofNat 64 s.board.gated
  | .tcimem _ _ => 0
  | .tcsmem d i => tget 0 (s.die d).tc.smem i
  | .ptsize a => BitVec.ofNat 64 (s.commOf a).ptsize
  | .jobId a => BitVec.ofNat 64 ((s.commOf a).job.getD 0)
  | .chanWord a i => tget 0 (s.commOf a).chans i
  | .groupAddr d g => tget 0 (s.die d).groups g

/-- The registers whose current values read before step 6 of the reset sequence (R411); state memory reads at any time (R156). -/
def earlyReg : DevReg → Bool
  | .tcsmem _ _ => true
  | .fwstat => true | .fwfloor0 => true | .fwfloor1 => true | .hlstat => true | .teltemp => true
  | _ => false

/-- A read of a device register: before step 6, all but a few read their Reset value (R411). -/
def State.readReg (s : State) (r : DevReg) : W64 :=
  if s.board.boot < 6 && !earlyReg r then ({ State.reset with board := { Board.reset with znfM := s.board.znfM } }).regValue r
  else s.regValue r

/-- A named register for each index; the addresses inside the frames are not in the source (log 7). -/
def devRegOf (i : Nat) : Option DevReg :=
  let a := i / 64
  match i % 64 with
  | 0 => some (.caskctl (a % 8)) | 1 => some (.caskmiss (a % 8))
  | 2 => some (.tcctl (a % 4)) | 3 => some (.tcstat (a % 4)) | 4 => some (.tccnt (a % 4)) | 5 => some (.tcwdog (a % 4))
  | 6 => some (.txdstat (a % 4)) | 7 => some (.txcnt0 (a % 4)) | 8 => some (.txcnt1 (a % 4))
  | 9 => some (.txcnt2 (a % 4)) | 10 => some (.trbase (a % 4)) | 11 => some (.trctl (a % 4))
  | 12 => some (.trhead (a % 4)) | 13 => some (.trtail (a % 4)) | 14 => some (.dcnt (a % 4) (a / 4 % 10 + 1))
  | 15 => some .hlstat | 16 => some .hlctl | 17 => some .biasbase | 18 => some .biascnt | 19 => some .orphbase
  | 20 => some .orphcnt | 21 => some (.vicfg (a % 64) (a / 64 % 8)) | 22 => some (.errcnt (a % 4) (a / 4 % 11 + 1))
  | 23 => some (.errlost (a % 4)) | 24 => some .fwctl | 25 => some .fwstat | 26 => some .fwfloor0
  | 27 => some .fwfloor1 | 28 => some .fwfloorset | 29 => some .pwrctl | 30 => some .telpwr | 31 => some .teltemp
  | 32 => some .telthr | 33 => some (.tcimem (a % 4) (a / 4 % 16384)) | 34 => some (.tcsmem (a % 4) (a / 4 % 32768))
  | _ => none

/-- n bytes of a device frame: of the register that the aligned doubleword names, else free values (log 7). -/
def State.devRead (s : State) (pa n : Nat) : List Byte :=
  match devRegOf (Config.devRegIndex (pa / 8)) with
  | some r => (List.range n).map fun i => BitVec.ofNat 8 ((s.readReg r).toNat >>> (8 * ((pa + i) % 8)))
  | none => (List.range n).map fun i => Config.frameByte (pa + i)

/-- The bits of a register that a write clears where it writes 1 (R6). -/
def w1cBits : DevReg → W64
  | .hlstat => 1
  | .txdstat _ => 2
  | _ => 0

/-- What a register holds beneath a narrow write: a word of instruction memory, though only fetch reads it (Table 07-1). -/
def State.regHeld (s : State) : DevReg → W64
  | .tcimem d i => (tget 0 (s.die d).tc.imem i).setWidth 64
  | r => s.readReg r

/-- A write of a device frame: the register write it makes, the bytes not written keeping their value and clearing nothing
(R6, R47, log 7). FWFLOORSET is the host's alone: no action of the device raises the floor (R412). -/
def State.frameWrite (s : State) (host : Bool) (pa : Nat) (bs : List Byte) : State :=
  match devRegOf (Config.devRegIndex (pa / 8)) with
  | some r =>
    let m := (2 ^ (8 * bs.length) - 1) <<< (8 * (pa % 8))
    let v := BitVec.ofNat 64 (ofBytes bs <<< (8 * (pa % 8)))
    if r == .fwfloorset && !host then s
    else { s with agenda := s.agenda ++ [.registerWrite r (merge (BitVec.ofNat 64 m) (s.regHeld r &&& ~~~(w1cBits r)) v)] }
  | none => s

/-- A write of a device frame by the device itself. -/
def State.devWrite (s : State) (pa : Nat) (bs : List Byte) : State := s.frameWrite false pa bs

end Sys2Proof.Machine
end

