-- ==== Sys2Proof/Machine/Access.lean ====
section
/-! DEFINITION. Loads, stores and reductions of a context, the lees log, held releases and global-window accesses
(R47, R61, R65 to R70, R149 to R151, R292 to R298, R327 to R341, R465). -/

namespace Sys2Proof.Machine

/-! ## Traps that wait for the bundle boundary -/

/-- A trap HOSTLINK spends the failed completions that it answers: those in the 256-byte block of its address (R384, log 39). -/
def State.spendFail (s : State) (w : At) (t : Trap) : State :=
  if t.cause = 22 && !s.link.fails.isEmpty then
    { s with link := { s.link with fails := s.link.fails.filter fun f =>
        !(f.core == w.core && f.ctx == w.ctx && f.va.toNat / 256 == t.addr.toNat / 256) } }
  else s

/-- Adds a deferred trap to a context (R377). -/
def State.addDeferred (s : State) (w : At) (t : Trap) : State :=
  (s.spendFail w t).updSched w fun k => { k with deferred := k.deferred ++ [t] }

/-- A trap with a lane. -/
def trapAt (cause acc fkind : Nat) (lane : Nat) (addr : W64) : Trap :=
  { cause := cause, acc := acc, fkind := fkind, code := 0, lane := some lane, addr := addr, remote := false,
    deferred := false, bundle := none }

/-- A deferred trap (R377). Those of a slot name its lane: SCOPE, HOSTLINK, UNREACH and remote faults of an LS slot; a replay fault and
ECC are of none (R374). -/
def trapDeferred (cause acc fkind : Nat) (addr : W64) (remote : Bool) (bundle : Option W64) : Trap :=
  { cause := cause, acc := acc, fkind := fkind, code := 0
    lane := if cause = 9 || cause = 22 || fkind = 6 || remote then some 4 else none, addr := addr, remote := remote
    deferred := true, bundle := bundle }

/-- Cause and fault kind of a failure (Table 16-1). -/
def Fail.cause : Fail → Nat × Nat
  | .page k => (6, k)
  | .key => (7, 0)

/-! ## Elements of an access -/

/-- One element of a load or store: its address, size, data to store, and the bit of the register a load fills. -/
structure Elem where
  va   : W64
  n    : Nat
  data : List Byte
  lo   : Nat

/-- A translated part, split at a line boundary when its page is SO (R329). -/
def splitLine (va : W64) (n : Nat) (r : Except Fail Xl) : List (W64 × Nat × Except Fail Xl) :=
  match r with
  | .ok x =>
    let k := 128 - x.pa % 128
    if x.okind = 0 && k < n then [(va, k, r), (va + BitVec.ofNat 64 k, n - k, .ok { x with pa := x.pa + k })]
    else [(va, n, r)]
  | .error _ => [(va, n, r)]

/-- The parts of a local element with the translation of each (R59, R332). -/
def State.parts (s : State) (w : At) (c : Ctx) (va : W64) (n : Nat) (need : Need) : List (W64 × Nat × Except Fail Xl) :=
  let ext := c.extentFor va.toNat n
  ((pageParts va n).map fun p => splitLine p.1 p.2 (s.xlate w c.asid ext p.1 need c.sys.kperm)).flatten

/-- The scope an access carries: its own, or dev or sys on an SO page (R329). `sync` says it is checked (R339). -/
structure Ord where
  sync  : Bool
  scope : Nat

/-- The ordering of an access to a translated line: a load or store to an SO page is one of scope dev or sys (R329, R339); an atomic
keeps its own scope on every page (Table 14-1, R75). -/
def ordOf (x : Xl) (sync : Bool) (scope : Nat) (atomic : Bool := false) : Ord :=
  if x.okind = 0 && !atomic then { sync := true, scope := if isHostHomed x.pa then 5 else 4 } else { sync := sync, scope := scope }

/-- Whether an access is performed above the cluster (Table 14-1). -/
def Ord.wide (o : Ord) : Bool := o.sync && wideScope o.scope

/-- Whether the host access of n bytes from an address that a context makes next, `store` for a store or reduction, is to end in a
failed completion (R384, log 39). -/
def State.hostFails (s : State) (w : At) (va : W64) (n : Nat) (store : Bool) : Bool :=
  s.link.fails.any fun f => f.core == w.core && f.ctx == w.ctx && f.store == store && va.toNat ≤ f.va.toNat && f.va.toNat < va.toNat + n

/-- A host-homed access that traps HOSTLINK: the link is fenced, or its completion fails (R384, R398). -/
def State.hostLinkBad (s : State) (w : At) (x : Xl) (va : W64) (n : Nat) (store : Bool) : Bool :=
  isHostHomed x.pa && (s.link.fenced || s.hostFails w va n store)

/-! ## Performing -/

/-- A read of n bytes at the place of an access (Table 14-1); an atomic's takes a host-homed line with RdOwn (R390). -/
def State.performRead (s : State) (w : At) (x : Xl) (o : Ord) (asid n : Nat) (own : Bool := false) : List Byte × State :=
  let clu := clusterOf w.core
  if isDevFrame x.pa then (s.devRead x.pa n, s)
  else if s.atCluster x o.wide then
    let r := s.cluRead clu (some w.core) asid x.pa n
    (r.1, if o.sync then r.2.setRec clu x false (domOf w o.scope) else r.2)
  else
    let s := if o.wide then (linesOf x.pa n).foldl (fun s l => s.dropLine clu l) s else s
    let r := s.homeAccess x asid n own
    (r.1, if o.sync then r.2.setRec clu x o.wide (domOf w o.scope) else r.2)

/-- A write of listed bytes, by offset from the translated address, at the place of an access. -/
def State.performWrite (s : State) (w : At) (x : Xl) (o : Ord) (asid : Nat) (bs : List (Nat × Byte)) : State :=
  let clu := clusterOf w.core
  if isDevFrame x.pa then s.devWrite (x.pa + (bs.head?.map (·.1)).getD 0) (bs.map (·.2))
  else
    let at' := bs.map fun p => (x.pa + p.1, p.2)
    if s.atCluster x o.wide then
      let s := s.cluWrite clu (some w.core) asid at'
      if o.sync then s.setRec clu x false (domOf w o.scope) else s
    else
      let s := if o.wide then at'.foldl (fun s p => s.dropLine clu (p.1 / 128)) s else s
      let s := s.homePuts x asid at'
      if o.sync then s.setRec clu x o.wide (domOf w o.scope) else s

/-! ## Atomics (R297) -/

/-- Operation codes of R465: 0 ATADD to 5 ATAND, 6 ATCAS, 7 ATCAS2. The new value from old m, operand s and compare c. -/
def atomicNew (op bits m s c : Nat) : Nat :=
  match op with
  | 0 => (m + s) % 2 ^ bits
  | 1 => if sextNat s bits < sextNat m bits then s else m
  | 2 => if sextNat m bits < sextNat s bits then s else m
  | 3 => s
  | 4 => m ||| s
  | 5 => m &&& s
  | _ => if m = c then s else m

/-- Performs an atomic of n bytes at its place (R75): the old value. Operands are of n bytes. A compare that fails writes nothing
(R297). -/
def State.performAtomic (s : State) (w : At) (x : Xl) (o : Ord) (asid op n sv cv : Nat) : Nat × State :=
  let r := s.performRead w x o asid n true
  let m := ofBytes r.1
  let new := toBytes n (atomicNew op (8 * n) m sv cv)
  (m, if 6 ≤ op && m != cv then r.2 else r.2.performWrite w x o asid (new.zipIdx.map fun p => (p.2, p.1)))

/-! ## The lees log (R65 to R70) -/

/-- The lees operation of a reduction (Table 16-7). -/
def leesOpOf : Nat → LeesOp
  | 0 => .atadd | 1 => .atmin | 2 => .atmax | 3 => .atxch | 4 => .ator | _ => .atand

/-- The atomic operation of an entry. -/
def LeesOp.code : LeesOp → Nat
  | .store => 8 | .atadd => 0 | .atmin => 1 | .atmax => 2 | .atxch => 3 | .ator => 4 | .atand => 5

/-- The trap access class of an entry (R374). -/
def Lees.acc (e : Lees) : Nat := if e.op == .store then 2 else 4

/-- Blocks of 256 bytes that a byte range touches. -/
def blocksOf (va : W64) (n : Nat) : List Nat :=
  if n = 0 then [] else (List.range ((va.toNat + n - 1) / 256 - va.toNat / 256 + 1)).map fun i => va.toNat / 256 + i

/-- The distinct blocks of a list of elements (R67). -/
def blocksOfAll (es : List Elem) : List Nat := ((es.map fun e => blocksOf e.va e.n).flatten).eraseDups

/-- Reservations of a core's unanswered global stores and reductions: one for each block of each access (R67). One that a log
entry sends again has that entry. -/
def State.globalStores (s : State) (core : Nat) : Nat :=
  let accs := ((s.die (dieOf core)).tx.flows.map fun f => f.2.accs.filter fun a => a.core == core && a.lees.isNone).flatten
  ((accs.map fun a => match a.grp with
    | some g => (blocksOf a.va a.size).map fun b => (g, b)
    | none => []).flatten).eraseDups.length

/-- Free positions of a core's log (R67). -/
def State.leesRoom (s : State) (core : Nat) : Nat := 64 - (s.core core).lees.length - s.globalStores core

/-- Whether a byte range overlaps an entry's bytes. -/
def Lees.overlaps (e : Lees) (asid : Nat) (va : W64) (n : Nat) : Bool :=
  e.asid == asid && e.data.any fun p => va.toNat ≤ e.va.toNat + p.1 && e.va.toNat + p.1 < va.toNat + n

/-- Whether a context has entries in its core's log. -/
def State.hasLees (s : State) (w : At) : Bool := (s.core w.core).lees.any fun e => e.ctx == w.ctx

/-- Order of stamps, of a counter of 16 bits (R65, R69). -/
def stampLe (a b : Nat) : Bool := (b + 65536 - a) % 65536 < 32768

/-- An entry of a context before its place, bytes and operation are known: a plain store (R65). -/
def leesFor (w : At) (c : Ctx) (bundle : W64) : Lees :=
  { ctx := w.ctx, trid := c.tridN, asid := c.asid, stamp := 0, va := 0, data := [], op := .store, size := 0,
    kperm := c.sys.kperm, scope := 8, bundle := bundle, rel := false, acq := false, vec := false, remote := false,
    grp := none, ready := false, failed := false, after := 0 }

/-- Logs bytes of one block, with the next stamp of the context (R65). -/
def State.logBlock (s : State) (w : At) (e : Lees) (block : Nat) (bs : List (Nat × Byte)) : State :=
  let stamp := (s.ctx w).stamp
  let e := { e with stamp := stamp, va := BitVec.ofNat 64 (block * 256), data := bs, after := if e.after = 0 then s.accId else e.after }
  let s := s.updCore w.core fun k => { k with lees := k.lees ++ [e] }
  s.updCtx w fun x => { x with stamp := (stamp + 1) % 65536 }

/-- The bytes of a range that lie in a block, by offset in it. -/
def cellsIn (va : W64) (bs : List Byte) (block : Nat) : List (Nat × Byte) :=
  ((bs.zipIdx.map fun p => (va.toNat + p.2, p.1)).filter fun p => p.1 / 256 == block).map fun p => (p.1 - block * 256, p.2)

/-- Logs a part of a store or a reduction, one entry for each block. -/
def State.logPart (s : State) (w : At) (e : Lees) (va : W64) (bs : List Byte) : State :=
  (blocksOf va bs.length).foldl (fun s b => s.logBlock w e b (cellsIn va bs b)) s

/-- Adds bytes to a block that this access has logged already, or logs it (R65: one entry per block of an access); the access's
entries are those at or after position `first`. -/
def State.logElem (s : State) (w : At) (e : Lees) (first : Nat) (va : W64) (bs : List Byte) : State :=
  (blocksOf va bs.length).foldl (fun s b =>
    let cells := cellsIn va bs b
    let mine := fun (x : Lees) => x.ctx == w.ctx && x.va.toNat == b * 256 && x.op == .store && x.remote == e.remote
    let l := (s.core w.core).lees
    if (l.drop first).any mine then
      let add := fun (x : Lees) => { x with data := x.data.filter (fun p => !(cells.any fun q => q.1 == p.1)) ++ cells }
      s.updCore w.core fun k => { k with lees := l.take first ++ mapIf mine add (l.drop first) }
    else s.logBlock w e b cells) s

/-! ## Releases held at their places, and cache operations that wait for them (R69, R79) -/

/-- Whether bytes are those of a held release. -/
def HeldRel.on (r : HeldRel) (trid pa n : Nat) : Bool := r.trid == trid && r.x.pa < pa + n && pa < r.x.pa + r.data.length

/-- Bytes of a release of this context that is held. -/
def State.heldOverlap (s : State) (trid pa n : Nat) : Bool := s.releases.any fun r => r.on trid pa n

/-- Whether a task has a held release. -/
def State.hasHeld (s : State) (trid : Nat) : Bool := s.releases.any fun r => r.trid == trid

/-- The stamp that a release of a context carries: that of its newest entry, or of a release that is still held (R69). -/
def State.newestStamp (s : State) (w : At) : Option Nat :=
  match ((s.core w.core).lees.filter fun e => e.ctx == w.ctx).getLast? with
  | some e => some e.stamp
  | none => ((s.releases.filter fun r => r.trid == (s.ctx w).tridN).getLast?).map (·.stamp)

/-- Whether a task has a CFLUSH or CINV that is not complete (R79). -/
def State.cacheBusy (s : State) (trid : Nat) : Bool := s.cacheOps.any fun o => o.trid == trid

/-- Whether a read waits for the invalidation of its line (R79). -/
def State.cinvWait (s : State) (trid pa n : Nat) : Bool :=
  s.cacheOps.any fun o => o.trid == trid && o.inv && (linesOf pa n).contains (o.x.pa / 128)

/-! ## Global-window accesses (R50, R149, R465) -/

/-- The flow of a context's global accesses to a peer (R149). -/
def globalFlow (w : At) (peer : Nat) : Nat := 2 ^ 24 + (w.core * 4 + w.ctx) * 8192 + peer

/-- A packet that is still to be sent: its job, operation, extension words and payload. -/
def newPkt (job opid : Nat) (w0 w1 w2 w3 : W64) (payload : List Byte) : OutPkt :=
  { psn := 0, job := job, slot := 63, w0 := w0, w1 := w1, w2 := w2, w3 := w3, sem := [], payload := payload, opid := opid,
    acked := false, sent := false, backoff := false, missing := false, sync := false, noret := false, wire := false, since := 0,
    left := 1 }

/-- Appends a packet to a flow. -/
def Flow.add (f : Flow) (k : OutPkt) : Flow := { f with next := f.next + 1, pkts := f.pkts ++ [{ k with psn := f.next }] }

/-- A flow before its first packet. -/
def Flow.new (peer asid : Nat) (rod : Bool) : Flow :=
  { peer := peer, asid := asid, rod := rod, next := 0, slot := 0, pkts := [], accs := [], timeouts := 0, rtoAt := 0, rtoPsn := none }

/-- W0 of a packet of the device (Table 06-2). -/
def pktW0 (op fmt asz plen : Nat) : W64 := mkW [(1, 60), (op, 56), (fmt, 52), (1, 51), (asz, 48), (plen, 0)]

/-- The global accesses of a task that are not answered, on every die that it has run on. -/
def State.openAccs (s : State) (trid : Nat) : List GAcc :=
  (s.dies.map fun d => (d.2.tx.flows.map fun f => f.2.accs.filter fun a => a.trid == trid).flatten).flatten

/-- Whether a context has global accesses that are not answered; stores and atomics alone with `writes`. -/
def State.globalOpen (s : State) (w : At) (writes : Bool) : Bool :=
  (s.openAccs (s.ctx w).tridN).any fun a => !writes || a.op != 3

/-- The OPID after one: from 1 modulo 2²⁴, without 0 (R161). -/
def opidAfter (n : Nat) : Nat := if 2 ^ 24 ≤ n + 1 then 1 else n + 1

/-- Skips the OPIDs that stand in a list. -/
def freeOpid (used : List Nat) : Nat → Nat → Nat
  | 0, n => n
  | f + 1, n => if used.contains n then freeOpid used f (opidAfter n) else n

/-- Assigns an OPID of a die: one that no queued or current event and no open operation names (R161). -/
def State.newOpid (s : State) (die : Nat) : Nat × State :=
  let d := s.die die
  let evs := (d.tc.queue ++ d.tc.cur.toList).map fun e => fld e.w1 23 0
  let used := evs ++ d.tx.ops.map (·.opid) ++ (d.tx.flows.map fun f => f.2.accs.map (·.opid)).flatten
  let n := freeOpid used used.length (opidAfter d.tx.opid)
  (n, s.updTx die fun t => { t with opid := n })

/-- What a global access carries (R465): its operation GLOAD 3, GSTORE 4 or GATOM 5, its FMT, ASZ, W2 and payload; whether it
gives a result, acquires or synchronises; its bytes; the access whose log reservations it keeps (R67), and the entry that it
sends again (R66). -/
structure GReq where
  bundle  : W64
  va      : W64
  op      : Nat
  fmt     : Nat := 0
  asz     : Nat := 0
  w2      : W64 := 0
  payload : List Byte := []
  load    : Bool := false
  acq     : Bool := false
  sync    : Bool := false
  n       : Nat
  vec     : Bool := false
  grp     : Option Nat := none
  lees    : Option Nat := none

/-- Sends a global access. A device that names itself serves it without a port (R50). -/
def State.sendGlobal (s : State) (w : At) (c : Ctx) (g : GReq) : State :=
  let die := dieOf w.core
  let peer := fld g.va 59 47
  let fid := globalFlow w peer
  let r := s.newOpid die
  let s := r.2
  let w0 := pktW0 g.op g.fmt g.asz g.payload.length
  let w1 := BitVec.ofNat 64 (fld g.va 46 0)
  let acc : GAcc := { id := s.accId, core := w.core, ctx := w.ctx, trid := c.tridN, va := g.va, op := g.op, atop := g.fmt,
                      load := g.load, acq := g.acq, data := g.payload.zipIdx.map (fun p => (p.2, p.1)), wdata := g.w2.toNat,
                      size := g.n, kperm := c.sys.kperm, bundle := g.bundle, opid := r.1, sync := g.sync, lees := g.lees,
                      grp := g.grp, psn := (tget (Flow.new peer c.asid true) (s.die die).tx.flows fid).next, vec := g.vec }
  let self := s.globalSelf die c.asid g.va
  let f := tget (Flow.new peer c.asid true) (s.die die).tx.flows fid
  let job := (s.commOf c.asid).job.getD 0
  let noret := g.op == 5 && !g.load
  let f' := if self then { f with next := f.next + 1 }
    else f.add { newPkt job r.1 w0 w1 g.w2 0 g.payload with sync := g.sync, noret := noret }
  let s := { s with accId := s.accId + 1 }
  let s := if g.op = 3 then s else s.updTask c.tridN fun t =>
    { t with writes := t.writes ++ [(peer, acc.id)] }
  let s := s.updTx die fun t => { t with flows := tset t.flows fid { f' with accs := f'.accs ++ [acc] } }
  if !self then s
  else
    let p : Packet := { job := job, src := peer, flow := fid, psn := f.next, w0 := w0, w1 := w1, w2 := g.w2, w3 := 0,
                        payload := g.payload, unsupp := false, trim := false, sync := g.sync, noret := noret, resp := false, sem := [] }
    { s with agenda := s.agenda ++ [if g.op = 3 then .rxGload die p else if g.op = 4 then .rxGstore die p
                                    else .rxGatom die p] }

/-! ## Loads: verdict at issue (R61, R67) -/

/-- What issue finds for an access: it goes on, it is held, or it traps. -/
inductive Verdict where
  | go
  | hold (wait : Run) (f : State → State)
  | trap (t : Trap)

/-- The verdict of several, in order: a trap is found only once every stall has ended (R221). -/
def firstVerdict (l : List Verdict) : Verdict :=
  match l.find? (fun | .hold _ _ => true | _ => false), l.find? (fun | .trap _ => true | _ => false) with
  | some h, _ => h
  | none, some t => t
  | none, none => .go

/-- A stall while a condition holds. -/
def stallIf (b : Bool) : Verdict := if b then .hold .stalled id else .go

/-- Whether a global access to bytes waits for a store or atomic of its own context to them that is not answered: one that faults at
its target is logged and comes first (R328). -/
def State.globalBusy (s : State) (c : Ctx) (va : W64) (n : Nat) : Bool :=
  (s.openAccs c.tridN).any fun a => a.op != 3 && va.toNat < a.va.toNat + a.size && a.va.toNat < va.toNat + n

/-- A stall on what some bias asks for. -/
def biasVerdict : Option (State → State) → Verdict
  | some f => .hold .stalled f
  | none => .go

/-- A load held on a page that is not present, with its page request, or its trap once declined (R61). -/
def notPresent (s : State) (w : At) (asid : Nat) (va : W64) (acc lane kind : Nat) : Verdict :=
  match (s.ctx w).sched.hold with
  | some h => if h.declined then .trap (trapAt 6 acc 0 lane va) else .hold .waiting id
  | none => .hold .waiting fun s =>
      (s.updSched w fun k => { k with hold := some { asid := asid, va := va, declined := false } }).pageRequest
        (dieOf w.core) asid va kind

/-- What an access to an SO page that is performed before it retires waits for: every earlier access of its context (R329). -/
def State.soBusy (s : State) (w : At) (c : Ctx) : Bool :=
  s.hasLees w || s.hasHeld c.tridN || s.globalOpen w false || s.cacheBusy c.tridN

/-- The verdict on one translated part of an element that is translated before it retires. The scope check of a store is made when
it is performed (R340). -/
def State.partVerdict (s : State) (w : At) (c : Ctx) (acc lane kind : Nat) (vec : Bool) (sync : Bool) (scope : Nat)
    (e : Elem) (p : W64 × Nat × Except Fail Xl) : Verdict :=
  match p.2.2 with
  | .error (.page 0) => notPresent s w c.asid p.1 acc lane kind
  | .error f => .trap (trapAt f.cause.1 acc f.cause.2 lane p.1)
  | .ok x =>
    let o := ordOf x sync scope (acc == 3)
    if (x.okind == 0 && s.soBusy w c) || s.heldOverlap c.tridN x.pa p.2.1 || s.cinvWait c.tridN x.pa p.2.1 then
      .hold .stalled id
    else match s.placeWait (clusterOf w.core) x o.wide (acc != 1) p.2.1 with
    | some f => .hold .stalled f
    | none =>
      if isDevFrame x.pa && vec then .trap (trapAt 6 acc 5 lane p.1)
      else if isDevFrame x.pa && e.va.toNat % e.n != 0 then .trap (trapAt 8 acc 0 lane e.va)
      else if s.hostLinkBad w x p.1 p.2.1 (acc == 2 || acc == 4) then .trap (trapAt 22 acc 0 lane p.1)
      else if acc != 2 && o.sync && !(s.scopeOk (clusterOf w.core) x o.wide (domOf w o.scope)) then
        .trap (trapAt 9 acc 0 lane p.1)
      else .go

/-- The verdict on one element of a load-class access. -/
def State.loadVerdict (s : State) (w : At) (c : Ctx) (acc lane kind : Nat) (vec : Bool) (need : Need) (sync : Bool)
    (scope : Nat) (e : Elem) : Verdict :=
  let busy := (s.core w.core).lees.any fun l => l.ctx == w.ctx && l.overlaps c.asid e.va e.n
  firstVerdict (stallIf busy ::
    if isGlobal e.va then [stallIf (s.globalBusy c e.va e.n),
      if s.globalFault (dieOf w.core) c.asid e.va then .trap (trapAt 6 acc 3 lane e.va) else .go]
    else biasVerdict (s.coreWalkWait w.core c.asid (c.extentFor e.va.toNat e.n) e.va e.n) :: (s.parts w c e.va e.n need).map (s.partVerdict w c acc lane kind vec sync scope e))

/-- Performs a local load of one element: its bytes. -/
def State.loadElem (s : State) (w : At) (c : Ctx) (need : Need) (sync : Bool) (scope : Nat) (e : Elem) :
    List Byte × State :=
  (s.parts w c e.va e.n need).foldl (fun r p =>
    match p.2.2 with
    | .error _ => r
    | .ok x =>
      let s := if (c.extentFor e.va.toNat e.n).isSome then r.2 else r.2.coreFill w.core c.asid p.1.toNat
      let q := s.performRead w x (ordOf x sync scope (need == .rmw)) c.asid p.2.1
      (r.1 ++ q.1, q.2)) ([], s)

/-- Whether an acquire of a context is not performed yet: a global one that is not answered, or a reduction in the log
(R293, R298, R333). -/
def State.acqBusy (s : State) (w : At) : Bool :=
  (s.openAccs (s.ctx w).tridN).any (·.acq) ||
  (s.core w.core).lees.any fun e => e.ctx == w.ctx && e.acq

/-! ## Stores -/

/-- The verdict on the addresses of a store before it retires: CANON and GLOBAL (R49, R50, R65). -/
def State.storeAddr (s : State) (w : At) (c : Ctx) (acc lane : Nat) (e : Elem) : Verdict :=
  if isGlobal e.va then
    if s.globalFault (dieOf w.core) c.asid e.va then .trap (trapAt 6 acc 3 lane e.va) else stallIf (s.globalBusy c e.va e.n)
  else match (pageParts e.va e.n).find? fun p => badCanon p.1 with
    | some p => .trap (trapAt 6 acc 2 lane p.1)
    | none => .go

/-- The verdict on a store before it retires: its addresses, and room in the log (R67); `es` its active elements. -/
def State.storeVerdict (s : State) (w : At) (c : Ctx) (acc lane : Nat) (es : List Elem) : Verdict :=
  firstVerdict (stallIf (s.leesRoom w.core < (blocksOfAll es).length) :: es.map (s.storeAddr w c acc lane))

/-- What a store waits for at the places of its bytes: the bias of its pages and of those that its translation walks (R387), and a
release of its own context that is held there (R328). A release itself is held behind it in turn (R69). `sync` and `scope` are those
of a release or a reduction. -/
def State.storeWait (s : State) (w : At) (c : Ctx) (need : Need) (rel sync : Bool) (scope : Nat) (es : List Elem) : Verdict :=
  firstVerdict (es.map fun e =>
    if isGlobal e.va then .go
    else firstVerdict (biasVerdict (s.coreWalkWait w.core c.asid (c.extentFor e.va.toNat e.n) e.va e.n) ::
      (s.parts w c e.va e.n need).map fun p =>
        match p.2.2 with
        | .ok x =>
          if !rel && s.heldOverlap c.tridN x.pa p.2.1 then .hold .stalled id
          else biasVerdict (s.placeWait (clusterOf w.core) x (ordOf x sync scope (need == .rmw)).wide true p.2.1)
        | .error _ => .go))

/-- Whether a store part enters the log though it does not fault (R65). -/
def State.logsBehind (s : State) (w : At) (c : Ctx) (x : Xl) (va : W64) (n : Nat) : Bool :=
  (x.okind == 0 && s.hasLees w) || (s.core w.core).lees.any fun l => l.overlaps c.asid va n

/-- The address of the block that an address lies in: that of its entry (R65). -/
def blockVa (va : W64) : W64 := BitVec.ofNat 64 (va.toNat / 256 * 256)

/-- A store part that fails: the log, and one page request for each page of the access that fails (R65, R66). A vector store to a
device frame sends none, and suspends its context (R47). -/
def State.logFault (s : State) (w : At) (c : Ctx) (e : Lees) (first : Nat) (va : W64) (bs : List Byte) (dev : Bool) : State :=
  let l := ((s.core w.core).lees.drop first).filter fun x => x.ctx == w.ctx && !x.ready
  if dev then
    let s := s.logElem w { e with failed := true } first va bs
    if l.any fun x => x.va == blockVa va then s else s.addDeferred w { trapDeferred 6 2 5 (blockVa va) false none with lane := some 4 }
  else
    let s := s.logElem w e first va bs
    if l.any fun x => x.va.toNat / 4096 == va.toNat / 4096 then s else s.pageRequest (dieOf w.core) c.asid va 1

/-- Performs one translated part of a plain or SO store, or logs it. -/
def State.storePart (s : State) (w : At) (c : Ctx) (e : Lees) (first : Nat) (fill : Bool) (va : W64)
    (bs : List Byte) : Except Fail Xl → State
  | .error _ => s.logFault w c e first va bs false
  | .ok x =>
    let o := ordOf x false 0
    if isDevFrame x.pa && e.vec then s.logFault w c e first va bs true
    else if s.hostLinkBad w x va bs.length true then s.addDeferred w (trapDeferred 22 2 0 va false (some e.bundle))
    else if s.logsBehind w c x va bs.length then s.logElem w { e with ready := true } first va bs
    else
      let s := if fill then s.coreFill w.core c.asid va.toNat else s
      if o.sync && !(s.scopeOk (clusterOf w.core) x o.wide (domOf w o.scope)) then
        s.addDeferred w (trapDeferred 9 2 0 va false (some e.bundle))
      else s.performWrite w x o c.asid (bs.zipIdx.map fun p => (p.2, p.1))

/-- Performs a local store of one element, split at pages (R332). -/
def State.storeElem (s : State) (w : At) (c : Ctx) (l : Lees) (first : Nat) (e : Elem) : State :=
  ((s.parts w c e.va e.n .store).foldl (fun (r : State × List Byte) p =>
    (r.1.storePart w c l first (c.extentFor e.va.toNat e.n).isNone p.1 (r.2.take p.2.1) p.2.2,
      r.2.drop p.2.1)) (s, e.data)).1

/-- A store of the active elements of an access, in ascending order (R295). A global element that overlaps an entry enters the log
behind it (R65); with `resv` its access keeps reservations until it is answered (R67). -/
def State.storeAll (s : State) (w : At) (c : Ctx) (l : Lees) (sync resv : Bool) (es : List Elem) : State :=
  let first := (s.core w.core).lees.length
  let g := if resv then some s.accId else none
  es.foldl (fun s e =>
    if isGlobal e.va then
      if (s.core w.core).lees.any fun x => x.overlaps c.asid e.va e.n then
        s.logElem w { l with remote := true, grp := g, ready := true, scope := if sync then 4 else 8, rel := sync } first e.va e.data
      else s.sendGlobal w c { bundle := l.bundle, va := e.va, op := 4, payload := e.data, sync := sync, n := e.n, vec := l.vec, grp := g }
    else s.storeElem w c l first e) s

/-- A release store of one part (R69, R293), or a reduction that releases: held behind the context's log entries, performed
otherwise. -/
def State.releaseWrite (s : State) (w : At) (c : Ctx) (bundle va : W64) (x : Xl) (scope : Nat) (bs : List Byte)
    (at' : Option (LeesOp × Nat)) : State :=
  let o := ordOf x true scope at'.isSome
  if !(s.scopeOk (clusterOf w.core) x o.wide (domOf w o.scope)) then
    s.addDeferred w (trapDeferred 9 (if at'.isSome then 4 else 2) 0 va false (some bundle))
  else match s.newestStamp w with
  | some st =>
    let r : HeldRel := { trid := c.tridN, asid := c.asid, va := va, core := w.core, ctx := w.ctx, stamp := st, x := x,
                         scope := scope, data := bs, atop := at', bundle := bundle, frozen := false }
    { s with releases := s.releases ++ [r] }
  | none => match at' with
    | some (op, n) => (s.performAtomic w x o c.asid op.code n (ofBytes bs) 0).2
    | none => s.performWrite w x o c.asid (bs.zipIdx.map fun p => (p.2, p.1))

/-! ## Replay (R66, R68, R341) -/

/-- What comes of an entry that is tried: it is performed and leaves the log, it waits, or it fails. -/
inductive Tried where
  | done (s : State)
  | wait (s : State)
  | fail (f : Fail)

/-- Keeps the releases of a task invisible that wait for an entry of a stamp. -/
def State.freezeFrom (s : State) (trid stamp : Nat) : State :=
  { s with releases := mapIf (fun r => r.trid == trid && stampLe stamp r.stamp) (fun r => { r with frozen := true }) s.releases }

/-- Keeps the releases invisible that wait for an entry which failed the scope check (R341). -/
def State.freeze (s : State) (e : Lees) : State := s.freezeFrom e.trid e.stamp

/-- Performs the bytes of a translated entry that lie in one line, after the scope check if it is a synchronisation access. -/
def State.replayLine (s : State) (w : At) (e : Lees) (x : Xl) (o : Ord) (line : Nat) : State :=
  let xl := { x with pa := line * 128 }
  let bs := (e.data.filter fun p => (x.pa + p.1) / 128 == line).map fun p => (x.pa + p.1 - line * 128, p.2)
  if bs.isEmpty then s
  else if o.sync && !(s.scopeOk (clusterOf w.core) xl o.wide (domOf w o.scope)) then
    (s.addDeferred w (trapDeferred 9 2 0 (e.va + BitVec.ofNat 64 ((e.data.head?.map (·.1)).getD 0)) false (some e.bundle))).freeze e
  else s.performWrite w xl o e.asid bs

/-- Whether a translated entry waits for what its context did before it: a release or an access to an SO page for every older entry and
held release, every older global access that is not answered and every older cache operation that is not complete, any other for a
held release of its bytes (R328, R329, R334). -/
def State.replayWait (s : State) (e : Lees) (x : Xl) (older : Bool) : Bool :=
  let before := s.releases.filter fun r => r.trid == e.trid && r.stamp != e.stamp && stampLe r.stamp e.stamp
  if e.rel || x.okind == 0 then
    older || !before.isEmpty || (s.openAccs e.trid).any (fun a => a.id < e.after) ||
      s.cacheOps.any fun o => o.trid == e.trid && o.id < e.after
  else before.any fun r => r.on e.trid x.pa 256

/-- What the bytes of a translated entry wait for at their places, line by line (R387). -/
def State.entryBias (s : State) (clu : Nat) (e : Lees) (x : Xl) (wide : Bool) : Option (State → State) :=
  ((e.data.map fun p => (x.pa + p.1) / 128).eraseDups).findSome? fun l =>
    s.placeWait clu { x with pa := l * 128 } wide true 128

/-- Tries a logged entry, translated afresh (R66, R68); `older` says that its context has an older entry. -/
def State.replayOne (s : State) (w : At) (e : Lees) (older : Bool) : Tried :=
  let at0 := (e.data.head?.map (·.1)).getD 0
  let va := e.va + BitVec.ofNat 64 at0
  let ext := (s.ctx w).extentFor e.va.toNat 256
  match s.coreWalkWait w.core e.asid ext e.va 1 with
  | some f => .wait (f s)
  | none => match s.xlate w e.asid ext e.va (if e.op == .store then .store else .rmw) e.kperm with
  | .error f => .fail f
  | .ok x =>
    let o := ordOf x (e.scope < 8) e.scope (e.op != .store)
    if isDevFrame x.pa && (e.vec || e.op != .store) then .fail (.page 5)
    else if s.hostLinkBad w x e.va 256 true then .done (s.addDeferred w (trapDeferred 22 e.acc 0 va false (some e.bundle)))
    else if e.op != .store && s.noAtomicOp x e.op.code then .fail (.page 5)
    else if s.replayWait e x older then .wait s
    else match s.entryBias (clusterOf w.core) e x o.wide with
    | some f => .wait (f s)
    | none =>
      let s := s.coreFill w.core e.asid e.va.toNat
      if e.op == .store then
        if isDevFrame x.pa then .done (s.performWrite w x o e.asid e.data)
        else .done ((linesOf x.pa 256).foldl (fun s l => s.replayLine w e x o l) s)
      else
        let x := { x with pa := x.pa + at0 }
        if !(s.scopeOk (clusterOf w.core) x o.wide (domOf w o.scope)) then
          .done ((s.addDeferred w (trapDeferred 9 4 0 va false (some e.bundle))).freeze e)
        else .done (s.performAtomic w x o e.asid e.op.code e.size (ofBytes (e.data.map (·.2))) 0).2

/-- The context that a task runs in. -/
def State.whereIs (s : State) (trid : Nat) : Option At :=
  match tget? s.tasks trid with
  | some t => if t.saved then none else some ⟨t.core, t.ctx⟩
  | none => none

/-- Whether two entries are one. -/
def Lees.same (e x : Lees) : Bool := x.ctx == e.ctx && x.stamp == e.stamp

/-- Changes an entry of a core's log. -/
def State.updLees (s : State) (core : Nat) (e : Lees) (f : Lees → Lees) : State :=
  s.updCore core fun k => { k with lees := mapIf e.same f k.lees }

/-- An entry leaves the log. -/
def State.dropLees (s : State) (core : Nat) (e : Lees) : State :=
  s.updCore core fun k => { k with lees := k.lees.filter fun x => !e.same x }

/-- The bytes of an entry as the stores that it was made of: runs of rising offsets, cut for a vector store at its elements, which are
aligned to their size (R291, R465). -/
def runsOf (size : Nat) (vec : Bool) (l : List (Nat × Byte)) : List (Nat × List Byte) :=
  ((List.range 256).filterMap fun i => (l.find? fun p => p.1 == i)).foldl (fun rs p =>
    match rs.getLast? with
    | some r => if r.1 + r.2.length = p.1 && r.2.length < 8 && !(vec && p.1 % max 1 size == 0) then rs.dropLast ++ [(r.1, r.2 ++ [p.2])]
      else rs ++ [(p.1, [p.2])]
    | none => [(p.1, [p.2])]) []

/-- Whether a global access that sends an entry again is not answered. -/
def State.leesSent (s : State) (e : Lees) : Bool := (s.openAccs e.trid).any fun a => a.lees == some e.stamp

/-- Sends a logged global store or reduction again, a store as the GSTOREs of its elements (R66, R465). -/
def State.sendAgain (s : State) (w : At) (e : Lees) : State :=
  let c := s.ctx w
  let c : Ctx := { c with sys := { c.sys with kperm := e.kperm } }
  let s := s.updLees w.core e fun x => { x with ready := false }
  (runsOf e.size e.vec e.data).foldl (fun (s : State) r =>
    let g : GReq := { bundle := e.bundle, va := e.va + BitVec.ofNat 64 r.1, op := 4, acq := e.acq, sync := e.scope < 8,
                      n := r.2.length, lees := some e.stamp }
    s.sendGlobal w c (if e.op == .store then { g with payload := r.2 }
      else { g with op := 5, fmt := e.op.code, asz := if e.size = 4 then 0 else 1, w2 := w64 r.2, n := e.size })) s

/-- An entry that fails: one whose page is not present waits for it, any other suspends its context (R68). -/
def State.leesFail (s : State) (w : At) (e : Lees) (f : Fail) (ask : Bool) : State :=
  if f == .page 0 then
    let s := s.updLees w.core e fun x => { x with ready := false }
    if ask then s.pageRequest (dieOf w.core) e.asid (e.va + BitVec.ofNat 64 ((e.data.head?.map (·.1)).getD 0)) 1 else s
  else
    (s.updLees w.core e fun x => { x with failed := true }).addDeferred w
      (trapDeferred f.cause.1 e.acc f.cause.2 e.va false none)

/-- LEES_REPLAY: tries a core's entries that a test selects, in the order they were logged (R66); none passes an older entry that
shares a byte with it, so per-location order holds (R65). `ask` requests the pages found not present. -/
def State.replay (s : State) (core : Nat) (sel : Lees → Bool) (ask : Bool) : State :=
  (s.core core).lees.foldl (fun s e0 =>
    let l := (s.core core).lees
    match l.find? e0.same with
    | none => s
    | some e =>
      let before := l.takeWhile fun x => !e.same x
      let w : At := ⟨core, e.ctx⟩
      if e.failed || !sel e || before.any (fun x => x.asid == e.asid && x.va == e.va && x.data.any fun p => e.data.any fun q => q.1 == p.1)
      then s
      else if e.remote then (if s.leesSent e then s else s.sendAgain w e)
      else match s.replayOne w e (before.any fun x => x.ctx == e.ctx) with
        | .done s' => s'.dropLees core e
        | .wait s' => s'
        | .fail f => s.leesFail w e f ask) s

/-! ## Go messages (R69, R70) -/

/-- Stamps of the entries in a task's save image (Table 16-7). -/
def State.awayStamps (s : State) (t : Task) : List Nat :=
  (List.range (fld (s.homeW t.save.toNat) 47 40)).map fun i => fld (s.homeW (t.save.toNat + 0xA400 + 320 * i)) 15 0

/-- Whether the entries that a held release waits for are performed, and every release of its task that came before it (R69). -/
def State.goReady (s : State) (r : HeldRel) : Bool :=
  !r.frozen && (s.releases.find? fun q => q.trid == r.trid) == some r &&
  !(s.cores.any fun k => k.2.lees.any fun e => e.trid == r.trid && stampLe e.stamp r.stamp) &&
  !(match tget? s.tasks r.trid with
    | some t => t.saved && (s.awayStamps t).any fun n => stampLe n r.stamp
    | none => false)

/-- Takes a deferred trap to a task: to its context, or, while it is saved, to its first boundary (R377). -/
def State.deferTo (s : State) (trid : Nat) (t : Trap) : State :=
  match s.whereIs trid with
  | some w => s.addDeferred w t
  | none => s.updTask trid fun k => { k with trapAway := k.trapAway ++ [t] }

/-- The ordering of a held release. -/
def HeldRel.ord (r : HeldRel) : Ord := ordOf r.x true r.scope r.atop.isSome

/-- Performs a held release: its place in the coherence order is now (R69), and its record takes effect (R341). One to a host-homed line
is discarded where the link is fenced, or its completion fails, with its trap (R398). -/
def State.performRelease (s : State) (r : HeldRel) : State :=
  let w : At := ⟨r.core, r.ctx⟩
  let o := r.ord
  let w' := s.whereIs r.trid
  if isHostHomed r.x.pa && (s.link.fenced || (w' == some w && s.hostFails w r.va r.data.length true)) then
    s.deferTo r.trid (trapDeferred 22 (if r.atop.isSome then 4 else 2) 0 r.va false (some r.bundle))
  else match r.atop with
  | some (op, n) => (s.performAtomic w r.x o r.asid op.code n (ofBytes r.data) 0).2
  | none => s.performWrite w r.x o r.asid (r.data.zipIdx.map fun p => (p.2, p.1))

/-- RELEASE_GO: the releases of a task whose older entries are all performed are performed, in the order they came. -/
def State.goAll (s : State) (trid : Nat) : State :=
  (s.releases.filter fun r => idOf r.trid == idOf trid).foldl (fun (s : State) r =>
    if !s.goReady r then s
    else match s.placeWait (clusterOf r.core) r.x r.ord.wide true r.data.length with
    | some f => f s
    | none => ({ s with releases := s.releases.erase r } : State).performRelease r) s

/-- CFLUSH and CINV of the lines that no release of their task is held at any more (R79), and whose bias allows it (R387). -/
def State.cacheAll (s : State) : State :=
  s.cacheOps.foldl (fun (s : State) o =>
    if s.heldOverlap o.trid (o.x.pa / 128 * 128) 128 then s
    else match s.flushWait o.clu o.x o.scope with
    | some f => f s
    | none => ({ s with cacheOps := s.cacheOps.erase o } : State).flushOne o.clu o.x o.scope o.inv) s

/-- What a core's log can do now: the entries that are ready, then the releases and cache operations that waited for them, then the
entries that waited for those. -/
def State.settleLees (s : State) (core : Nat) : State :=
  let go := fun (s : State) => (s.releases.map (·.trid)).foldl (fun (s : State) t => s.goAll t) s
  let s := (go (s.replay core (·.ready) true)).cacheAll
  go (s.replay core (·.ready) true)

end Sys2Proof.Machine
end

