-- ==== Sys2Proof/Machine/Buffers.lean ====
section
/-! DEFINITION. Buffer spaces, regions of CB, and what a press and MCVT compute (R91 to R96, R180 to R198). -/

namespace Sys2Proof.Machine

/-! ## Buffer addresses (Table 05-1, R94) -/

/-- Bytes of a space, by core: WB, AB, CB; CK by cluster. -/
def spaceSize : Nat → Nat
  | 0 => 2 ^ 20 | 1 => 2 ^ 20 | 2 => 2 ^ 19 | 3 => 24 * 2 ^ 20 | _ => 0

/-- Space of a buffer address word. -/
def bufSpace (a : W64) : Nat := fld a 63 60
/-- Core of a buffer address word, as a logical core of cluster `clu`. -/
def bufCore (clu : Nat) (a : W64) : Nat := clu * 64 + fld a 59 54
/-- Offset of a buffer address word. -/
def bufOff (a : W64) : Nat := fld a 24 0

/-- Whether n bytes from a buffer address are in range (R94). -/
def bufInRange (a : W64) (n : Nat) : Bool :=
  bufSpace a < 4 && fld a 53 25 == 0 && !(bufSpace a == 3 && fld a 59 54 != 0) && bufOff a + n ≤ spaceSize (bufSpace a)

/-- A buffer address word. -/
def bufWord (space core off : Nat) : W64 := mkW [(space, 60), (core % 64, 54), (off % 2 ^ 25, 0)]

/-- A core's buffer. -/
def Core.buf (k : Core) : Nat → Memory
  | 0 => k.wb | 1 => k.ab | _ => k.cb

/-- Changes a core's buffer. -/
def Core.updBuf (k : Core) (space : Nat) (f : Memory → Memory) : Core :=
  match space with
  | 0 => { k with wb := f k.wb }
  | 1 => { k with ab := f k.ab }
  | _ => { k with cb := f k.cb }

/-- Reads n bytes of a buffer for an ASID (R80, R84, R91). -/
def State.bufRead (s : State) (clu asid : Nat) (a : W64) (n : Nat) : List Byte × State :=
  if bufSpace a = 3 then s.caskRead clu asid (bufOff a) n
  else (mread ((s.core (bufCore clu a)).buf (bufSpace a)) (bufOff a) n, s)

/-- Writes bytes of a buffer for an ASID (R84, R91). -/
def State.bufWrite (s : State) (clu asid : Nat) (a : W64) (bs : List Byte) : State :=
  if bufSpace a = 3 then s.caskWrite clu asid (bufOff a) bs
  else s.updCore (bufCore clu a) fun k => k.updBuf (bufSpace a) fun m => mwrite m (bufOff a) bs

/-! ## Regions of CB (R183, R189) -/

/-- Offset of accumulator (m, n) of a region. -/
def Region.cell (r : Region) (m n : Nat) : Nat := r.off + 4 * r.cstr * m + 4 * n

/-- Whether a region has a byte in offsets lo to lo + len − 1. -/
def Region.touches (r : Region) (lo len : Nat) : Bool :=
  len != 0 && (List.range r.m).any fun m => r.cell m 0 < lo + len && lo < r.cell m 0 + 4 * r.n

/-- Whether two regions share a byte. -/
def Region.overlaps (r q : Region) : Bool := (List.range q.m).any fun m => r.touches (q.cell m 0) (4 * q.n)

/-- The first byte of an access that lies in a region. -/
def Region.firstIn (r : Region) (lo len : Nat) : Option Nat :=
  (List.range len).find? (fun i => r.touches (lo + i) 1) |>.map (lo + ·)

/-- First offset past a region. -/
def Region.stop (r : Region) : Nat := r.cell (r.m - 1) 0 + 4 * r.n

/-! ## Descriptor sets (Table 08-1) -/

/-- K of a set. -/
def mdK (d : List W64) : Nat := fld (wd d 3) 63 54 + 1
/-- N′ of a set under EF. -/
def mdN (d : List W64) (ef : Bool) : Nat := if ef then 128 else fld (wd d 3) 53 47 + 1
/-- M′ of a set under EF. -/
def mdM (d : List W64) (ef : Bool) : Nat := if ef then 64 else fld (wd d 3) 46 41 + 1
/-- A format. -/
def mdAF (d : List W64) : Nat := fld (wd d 0) 47 44
/-- B format. -/
def mdBF (d : List W64) : Nat := fld (wd d 1) 47 44
/-- Noise mode. -/
def mdNmode (d : List W64) : Nat := fld (wd d 4) 47 46

/-- The rate of an operand format (Table 08-3); 0 for none. -/
def operandRate (f : Nat) : Nat :=
  if f = 1 || f = 2 || f = 11 || f = 10 then 1
  else if f = 3 || f = 4 || f = 12 || f = 6 || f = 7 then 2
  else if f = 5 then 4 else 0

/-- Accumulator kind of a pair: 0 FP32, 1 INT32, 2 RNS3; none for a pair not listed (Table 08-3). -/
def pairKind (a b : Nat) : Option Nat :=
  if (1 ≤ a && a ≤ 5) && ((1 ≤ b && b ≤ 5) || b = 11 || b = 12) then some 0
  else if (a = 6 || a = 7) && (b = 6 || b = 7) then some 1
  else if a = 10 && b = 10 then some 2 else none

/-- The cell rate kr of a set's pair (R182). -/
def mdKr (d : List W64) : Nat := min (operandRate (mdAF d)) (operandRate (mdBF d))

/-- The accumulator region of a set (R183). -/
def mdRegion (d : List W64) (ef : Bool) : Region :=
  { off := fld (wd d 3) 18 0, cstr := fld (wd d 3) 31 19, m := mdM d ef, n := mdN d ef,
    kind := (pairKind (mdAF d) (mdBF d)).getD 0 }

/-- Bytes of k elements of a format. -/
def elemBytes (f k : Nat) : Nat := (k * fmtWidth f + 7) / 8

/-- An element of packed data in a buffer: k elements past a byte offset. -/
def bufElem (b : Memory) (f off k : Nat) : Nat :=
  if f = 5 then (mget b (off + k / 2)).toNat / 2 ^ (4 * (k % 2)) % 16
  else ofBytes (mread b (off + k * (fmtWidth f / 8)) (fmtWidth f / 8))

/-- Whether B draws: SW32 or SW16 with NMODE 1 or 2 (R14, R196). -/
def mdDraws (d : List W64) : Bool := (mdBF d == 11 || mdBF d == 12) && (mdNmode d == 1 || mdNmode d == 2)

/-- Tensor coordinates (row, column) of B(k, n) (R195). -/
def mdCoords (d : List W64) (k n : Nat) : Nat × Nat :=
  let ko := fld (wd d 5) 47 24
  let no := fld (wd d 5) 23 0
  if bit (wd d 4) 45 then (no + n, ko + k) else (ko + k, no + n)

/-- COLS of a set. -/
def mdCols (d : List W64) : Nat := fld (wd d 4) 23 0

/-- The conditions of R181 to R183 and R196 that depend on the descriptor: true when the slot is illegal. -/
def mdIllegal (d : List W64) (ef : Bool) : Bool :=
  let a := mdAF d
  let b := mdBF d
  let k := mdK d
  let kr := mdKr d
  let sw := b == 11 || b == 12
  let c := mdCoords d (k - 1) (mdN d ef - 1)
  (pairKind a b).isNone ||
  (bit (wd d 0) 43 && !(3 ≤ a && a ≤ 5)) || (bit (wd d 1) 43 && !(3 ≤ b && b ≤ 5)) ||
  k % kr != 0 || (k % 2 == 1 && (a == 5 || b == 5)) ||
  mdNmode d == 3 || (mdNmode d != 0 && !sw) ||
  (sw && mdNmode d != 0 && (mdCols d == 0 || mdCols d ≤ c.2 || 2 ^ 48 ≤ c.1 * mdCols d + c.2))

/-- The byte ranges (offset, length) that A reads in AB: rows, then scales. -/
def mdARanges (d : List W64) (ef : Bool) : List (Nat × Nat) :=
  let m := mdM d ef
  ((List.range m).map fun i => (fld (wd d 0) 19 0 + i * fld (wd d 0) 63 48, elemBytes (mdAF d) (mdK d))) ++
  (if bit (wd d 0) 43 then (List.range m).map fun i => (fld (wd d 2) 19 0 + 32 * i, (mdK d + 31) / 32) else [])

/-- The byte ranges that B reads in WB: columns, then scales. -/
def mdBRanges (d : List W64) (ef : Bool) : List (Nat × Nat) :=
  let n := mdN d ef
  ((List.range n).map fun i => (fld (wd d 1) 19 0 + i * fld (wd d 1) 63 48, elemBytes (mdBF d) (mdK d))) ++
  (if bit (wd d 1) 43 then (List.range n).map fun i => (fld (wd d 2) 51 32 + 32 * i, (mdK d + 31) / 32) else [])

/-- Whether every range ends at or below a size. -/
def rangesFit (rs : List (Nat × Nat)) (size : Nat) : Bool := rs.all fun r => r.1 + r.2 ≤ size

/-- Whether a list of ranges touches a bank group of a WB or AB (R92). -/
def touchesGroup (rs : List (Nat × Nat)) (g : Nat) : Bool :=
  rs.any fun r => r.2 != 0 && (r.1 / 2 ^ 19 == g || (r.1 + r.2 - 1) / 2 ^ 19 == g)

/-- Whether a list of ranges touches both groups. -/
def bothGroups (rs : List (Nat × Nat)) : Bool := touchesGroup rs 0 && touchesGroup rs 1

/-! ## The values an operation computes (R36 to R39, R187, R196) -/

/-- val(A, m, k) (R28, R36). -/
def valA (ab : Memory) (d : List W64) (m k : Nat) : Num :=
  let x := elemValue (mdAF d) (bufElem ab (mdAF d) (fld (wd d 0) 19 0 + m * fld (wd d 0) 63 48) k)
  if bit (wd d 0) 43 then applyScale false (mget ab (fld (wd d 2) 19 0 + 32 * m + k / 32)).toNat x else x

/-- The sample of B(k, n) (R194 to R196). -/
def sampleB (d : List W64) (k n : Nat) : Num :=
  let c := mdCoords d k n
  let idx := fld (wd d 4) 63 48 * 2 ^ 48 + c.1 * mdCols d + c.2
  let z := gaussZ (wd d 6) (BitVec.ofNat 64 idx)
  if mdNmode d = 2 then z.neg else z

/-- val(B, k, n) (R28, R36, R196). -/
def valB (wb : Memory) (d : List W64) (k n : Nat) : Num :=
  let f := mdBF d
  let bits := bufElem wb f (fld (wd d 1) 19 0 + n * fld (wd d 1) 63 48) k
  if f = 11 || f = 12 then
    let p := pairOf (f == 11) bits
    if mdNmode d = 0 then p.mu else p.perturb (f == 11) (sampleB d k n)
  else
    let x := elemValue f bits
    if bit (wd d 1) 43 then applyScale false (mget wb (fld (wd d 2) 51 32 + 32 * n + k / 32)).toNat x else x

/-- A signed or unsigned element of an integer operand. -/
def valI (b : Memory) (f off k : Nat) : Int :=
  let bits := bufElem b f off k
  if f = 7 then (bits : Int) else sextNat bits 8

/-- accumulate(c, d, m, n) of R187. -/
def accumulate (ab wb : Memory) (d : List W64) (c m n : Nat) : Nat :=
  let kr := mdKr d
  let steps := List.range (mdK d / kr)
  let ao := fld (wd d 0) 19 0 + m * fld (wd d 0) 63 48
  let bo := fld (wd d 1) 19 0 + n * fld (wd d 1) 63 48
  match pairKind (mdAF d) (mdBF d) with
  | some 0 => steps.foldl (fun acc s => accStepF acc
      ((List.range kr).map fun j => (valA ab d m (s * kr + j), valB wb d (s * kr + j) n))) c
  | some 1 => steps.foldl (fun acc s => accStepI acc
      ((List.range kr).map fun j => (valI ab (mdAF d) ao (s * kr + j), valI wb (mdBF d) bo (s * kr + j)))) c
  | _ => steps.foldl (fun acc s => accStepR acc (bufElem ab 10 ao s) (bufElem wb 10 bo s)) c

/-- L of an operation: 200 + S (R185). -/
def PressOp.lat (o : PressOp) : Nat := 200 + o.cycles

/-- The region of an operation. -/
def PressOp.region (o : PressOp) : Region := mdRegion o.words o.o.ef

/-- Whether an operation streams in a cycle, from the cycle it starts to its last fetch (R185). -/
def PressOp.streams (o : PressOp) (t : Nat) : Bool := t ≤ o.start + o.cycles

/-- Whether an operation is in place at a cycle (R185). -/
def PressOp.inPlace (o : PressOp) (t : Nat) : Bool := o.start + o.lat ≤ t

/-- The pending CB regions of a core with their contexts (R189). -/
def Core.pending (k : Core) : List (Nat × Region) :=
  (k.press.map fun p => ((p.2.ops ++ p.2.mmags).filter (·.o.w)).map fun o => (o.ctx, o.region)).flatten ++
  k.mzeros.map fun z => (z.ctx, z.region)

/-- The first byte of an access to CB that lies in a pending region (R189). -/
def Core.pendingByte (k : Core) (off n : Nat) : Option Nat :=
  (List.range n).find? (fun i => k.pending.any fun r => r.2.touches (off + i) 1) |>.map (off + ·)

/-- Whether a press reads the group or half of an access at a cycle (R95): A in AB, B in WB, and CB in accumulate mode. -/
def Core.pressReads (k : Core) (space off n t : Nat) : Bool :=
  k.press.any fun p => p.2.ops.any fun o =>
    o.start < t && o.streams t && match space with
    | 0 => touchesGroup (mdBRanges o.words o.o.ef) (off / 2 ^ 19) ||
        touchesGroup (mdBRanges o.words o.o.ef) ((off + n - 1) / 2 ^ 19)
    | 1 => touchesGroup (mdARanges o.words o.o.ef) (off / 2 ^ 19) ||
        touchesGroup (mdARanges o.words o.o.ef) ((off + n - 1) / 2 ^ 19)
    | 2 => o.o.a && (off / 2 ^ 18 == p.1 || (off + n - 1) / 2 ^ 18 == p.1)
    | _ => false

/-- Whether a word of an operation's results is cleared by a later MZERO of its context, issued before a cycle (R191). -/
def PressOp.cleared (o : PressOp) (before a : Nat) : Bool := o.cut.any fun c => c.1 < before && c.2.touches a 4

/-- A word of CB as it stands for an operation after every earlier MX write of its context, landed or not (R186): the newest of the
operations' results and the MZEROs, else what a later MZERO has cleared, else CB. Of rows that overlap through CSTR the last stands,
in the order of R187's loop. -/
def Core.cbForward (k : Core) (o : PressOp) (a : Nat) : Nat :=
  let ops := ((k.press.map fun p => p.2.ops.filter fun q => q.ctx == o.ctx && q.o.w).flatten)
  let res := ops.filterMap fun q => if q.cleared (o.issued + 1) a then none
    else (q.results.filter fun r => r.1 == a).getLast?.map fun r => (q.issued, r.2.toNat)
  let zer := (k.mzeros.filter fun z => z.ctx == o.ctx && z.issued ≤ o.issued && z.region.touches a 4).map fun z => (z.issued, 0)
  match (res ++ zer).foldl (fun (b : Option (Nat × Nat)) q => match b with
      | some x => if x.1 ≤ q.1 then some q else some x
      | none => some q) none with
  | some v => v.2
  | none => match tget? o.init a with
    | some v => v.toNat
    | none => ofBytes (mread k.cb a 4)

/-- press_op (R187): the new cells by number 128·m + n. -/
def Core.pressCells (k : Core) (p : Nat) (o : PressOp) : List (Nat × W32) :=
  let r := o.region
  ((List.range r.m).map fun m => (List.range r.n).map fun n =>
    let c : Nat := if o.o.z then 0
      else if o.o.a then k.cbForward o (r.cell m n)
      else (tget 0 (k.pressOf p).cells (128 * m + n)).toNat
    (128 * m + n, BitVec.ofNat 32 (accumulate k.ab k.wb o.words c m n))).flatten

/-- A hold that a resume left waiting is restored once the press has none (R192). -/
def Press.rehold (x : Press) : Press :=
  match x.hold, x.held with
  | none, h :: l => { x with hold := some (h.ctx, h.region), held := l, fresh := true,
                             cells := h.cells.foldl (fun t c => tset t c.1 c.2) x.cells }
  | _, _ => x

/-- Starts an operation on a press at a cycle: computes it, leaves the cells, and takes or releases the hold
(R185 to R187). -/
def State.startPress (s : State) (core p : Nat) (o : PressOp) : State :=
  let k := s.core core
  let cells := k.pressCells p o
  let r := o.region
  let res := if o.o.w then cells.map fun c => (r.cell (c.1 / 128) (c.1 % 128), c.2) else []
  s.updPress core p fun x =>
    { x with cells := cells.foldl (fun t c => tset t c.1 c.2) x.cells
             hold := if o.o.w || o.ended then none else some (o.ctx, r)
             fresh := false
             ops := x.ops ++ [{ o with start := s.cycle, results := res }]
             issuers := if x.issuers.contains (o.trid, false) then x.issuers else x.issuers ++ [(o.trid, false)] }

/-- Writes an operation's results to CB, but for the words that a later MZERO clears: these stand for the operations issued between
the two (R185, R187, R191). -/
def State.pressLand (s : State) (core p : Nat) (o : PressOp) : State :=
  let inside := o.results.filter fun r => !o.cleared (s.cycle + 1) r.1
  let lost := fun (q : PressOp) => o.results.filter fun r => o.issued < q.issued && o.cleared (s.cycle + 1) r.1 && !o.cleared q.issued r.1
  let s := s.updCore core fun k => { k with cb := inside.foldl (fun m r => mwrite m r.1 (toBytes 4 r.2.toNat)) k.cb }
  let pass := fun (q : PressOp) => { q with init := (lost q).foldl (fun t r => if (tget? t r.1).isSome then tset t r.1 r.2 else t) q.init }
  s.updPress core p fun x =>
    { x with ops := mapIf (· == o) (fun q => { q with results := [] }) x.ops
             mmags := mapIf (fun q => q.ctx == o.ctx) pass x.mmags }

/-- An operation that is complete leaves its press, and its window is closed (R185, R189). -/
def State.pressDone (s : State) (core p : Nat) (o : PressOp) : State :=
  s.updPress core p fun x => { x with ops := x.ops.erase { o with results := [] } }

/-! ## MCVT (R197, R198) -/

/-- t(m, n) of R198 as a number, or for an RNS3 destination the container. -/
def mcvtValue (o : McvtOpd) (a : Nat) : Num :=
  let sh := o.sh.toNat
  match o.skind.toNat with
  | 0 => (decodeFloat 0 a).shift (-(sh : Int))
  | 1 => Num.ofInt (divPow2NE (sextNat a 32) sh)
  | _ => Num.ofInt (rnsDec a sh)

/-- The elements of row m, as destination bits, and its scale bytes. The residues are those that R40 reads, and are written canonical
(R40, R198; log 51). -/
def mcvtRow (k : Core) (d : List W64) (o : McvtOpd) (m : Nat) : List Nat × List Nat :=
  let r := mdRegion d o.ef
  let df := o.dfmt.toNat
  let word := fun n => ofBytes (mread k.cb (r.cell m n) 4)
  let out := fun (n : Nat) (x : Num) => roundTo df (RM.ofCode o.rm.toNat) o.sat (wd d 6) (128 * m + n) x.toXR
  if df = 10 then ((List.range r.n).map fun n => rnsMk (rnsChan (word n)), [])
  else if o.dmx then
    let xs := fun j => (List.range 32).map fun i => mcvtValue o (word (32 * j + i))
    let gs := (List.range (r.n / 32)).map fun j => sharedExp (xs j) df
    ((List.range r.n).map fun n => out n (applyScale true (gs.getD (n / 32) 0) (mcvtValue o (word n))), gs)
  else ((List.range r.n).map fun n => out n (mcvtValue o (word n)), [])

/-- Packs elements of a row into bytes. -/
def packRow (f : Nat) (es : List Nat) : List Byte :=
  if f = 5 then (List.range ((es.length + 1) / 2)).map fun i =>
    BitVec.ofNat 8 (es.getD (2 * i) 0 % 16 + es.getD (2 * i + 1) 0 % 16 * 16)
  else (es.map (toBytes (fmtWidth f / 8))).flatten

/-- Destination offset, row stride and scale offset of MCVT (R198). -/
def mcvtDst (d : List W64) (o : McvtOpd) : Nat × Nat × Nat :=
  if o.dst then (fld (wd d 1) 19 0, fld (wd d 1) 63 48, fld (wd d 2) 51 32)
  else (fld (wd d 0) 19 0, fld (wd d 0) 63 48, fld (wd d 2) 19 0)

/-- The bytes that MCVT writes, in the order of its rows, its scales with each row. -/
def mcvtBytes (k : Core) (d : List W64) (o : McvtOpd) : List Host.Cell :=
  let r := mdRegion d o.ef
  let (off, str, soff) := mcvtDst d o
  ((List.range r.m).map fun m =>
    let row := mcvtRow k d o m
    ((packRow o.dfmt.toNat row.1).zipIdx.map fun b => (off + m * str + b.2, b.1)) ++
    (row.2.zipIdx.map fun g => (soff + 32 * m + g.2, (BitVec.ofNat 8 g.1 : Byte)))).flatten

/-- Whether two rows of a destination overlap through its stride (R198). -/
def mcvtOverlaps (d : List W64) (o : McvtOpd) : Bool :=
  let r := mdRegion d o.ef
  1 < r.m && (mcvtDst d o).2.1 < elemBytes o.dfmt.toNat r.n

/-- MCVT's illegal cases that depend on the word alone (R197). -/
def mcvtIllegalWord (o : McvtOpd) : Bool :=
  o.skind.toNat == 3 || 5 ≤ o.rm.toNat || (o.skind.toNat == 2 && 23 < o.sh.toNat) || 11 ≤ o.dfmt.toNat ||
  (o.dfmt.toNat == 10 && !(o.skind.toNat == 2 && o.sh.toNat == 0)) || (o.dmx && !(3 ≤ o.dfmt.toNat && o.dfmt.toNat ≤ 5))

/-- MCVT's illegal cases that depend on the set (R197). -/
def mcvtIllegalSet (d : List W64) (o : McvtOpd) : Bool :=
  (o.dmx && mdN d o.ef % 32 != 0) || (o.dfmt.toNat == 5 && mdN d o.ef % 2 == 1)

end Sys2Proof.Machine
end

