-- ==== Sys2Proof/Machine/Trace.lean ====
section
/-! DEFINITION. Accesses of the engines of a die, the decision trace, completion trees, priorities and the system
registers' values (R60, R246, R247, R354, R358, R365, R369 to R371). -/

namespace Sys2Proof.Machine

/-! ## Accesses of the dispatch engine and other units of a die (R60) -/

/-- Reads n bytes of one page at their home, for a unit with a right of keys. -/
def State.unitRead (s : State) (u : DieUnit) (die asid : Nat) (kperm va : W64) (n : Nat) : Except Fail (List Byte × State) :=
  match s.unitXlate u die asid va .load kperm with
  | .error f => .error f
  | .ok x => .ok ((s.unitFill u die asid va.toNat).homeAccess x asid n false)

/-- Writes bytes of one page at their home slices. -/
def State.unitWrite (s : State) (u : DieUnit) (die asid : Nat) (va : W64) (bs : List Byte) : Except Fail State :=
  match s.unitXlate u die asid va .store (BitVec.allOnes 64) with
  | .error f => .error f
  | .ok x => .ok ((s.unitFill u die asid va.toNat).homePuts x asid (bs.zipIdx.map fun p => (x.pa + p.2, p.1)))

/-- Words at a physical address, at their home slices. -/
def State.physWords (s : State) (pa n : Nat) : List W64 := (List.range n).map fun i => s.homeW (pa + 8 * i)

/-- Adds to a 64-bit word, as atadd.rel at its home; a host path that has no AtomicOp for it fails BADTARGET (R392). -/
def State.unitAdd (s : State) (u : DieUnit) (die asid : Nat) (va : W64) (v : W64) : Except Fail State :=
  match s.unitXlate u die asid va .rmw (BitVec.allOnes 64) with
  | .error f => .error f
  | .ok x =>
    if s.noAtomicOp x 0 then .error (.page 5)
    else
      let r := (s.unitFill u die asid va.toNat).homeAccess x asid 8 true
      let bs := toBytes 8 ((w64 r.1 + v).toNat)
      .ok (r.2.homePuts x asid (bs.zipIdx.map fun p => (x.pa + p.2, p.1)))

/-- Adds to a 64-bit word at a physical address (R62). -/
def State.physAdd (s : State) (pa : Nat) (v : Nat) : State :=
  s.homeWrite 0 pa (toBytes 8 ((s.homeW pa).toNat + v))

/-- Whether a failure pauses its operation: NOTPRESENT that the page service has not declined (R103). -/
def Fail.pauses (f : Fail) (hold : Option PageHold) : Bool :=
  f == .page 0 && !((hold.map (·.declined)).getD false)

/-- What the accesses that a unit makes to ranges of memory wait for: the bias of their pages, and of those that their translations walk
(R387). -/
def State.unitBias (s : State) (u : DieUnit) (die asid : Nat) (write : Bool) (rs : List (W64 × Nat)) : Option (State → State) :=
  if !s.coherentHost then none
  else rs.findSome? fun r => (List.range (r.2 / 128 + 2)).findSome? fun i =>
    let va := r.1 + BitVec.ofNat 64 (min (128 * i) (r.2 - 1))
    (s.unitWalkWait u die asid va).or (match s.unitXlate u die asid va .none 0 with
      | .ok x => s.homeWait x write 1
      | .error _ => none)

/-! ## Completion adds (R60, R368) -/

/-- Tries one completion add of a die: it is performed, waits for a page or its bias, or is dropped with a notice (log 66). -/
def State.addTry (s : State) (die : Nat) (a : DoneAdd) : State :=
  let keep := fun (s : State) (a : DoneAdd) => s.updDie die fun d => { d with adds := d.adds ++ [a] }
  match s.unitBias .dispatch die a.asid true [(a.addr, 8)] with
  | some f => keep (f s) a
  | none => match s.unitAdd .dispatch die a.asid a.addr 1 with
    | .ok s => s
    | .error f =>
      if f.pauses a.hold then
        if a.hold.isSome then keep s a
        else (keep s { a with hold := some { asid := a.asid, va := a.addr, declined := false } }).pageRequest die a.asid a.addr 1
      else s.mail die 3 [a.addr, 2]

/-- Tries the completion adds of a die, in order. -/
def State.addTurn (s : State) (die : Nat) : State :=
  ((s.die die).adds).foldl (fun s a => s.addTry die a) (s.updDie die fun d => { d with adds := [] })

/-- Ends a command of the dispatch engine with its completion add, translated in the ASID of the launch it serves (R60, R368). -/
def State.cmdDone (s : State) (die asid : Nat) (donep : W64) : State :=
  if donep = 0 then s
  else (s.updDie die fun d => { d with adds := d.adds ++ [⟨asid, donep, none⟩] }).addTurn die

/-! ## STEPBs that a tile request waits for (R213) -/

/-- What the sequencer keeps of block b. -/
def State.stepOf (s : State) (die b : Nat) : Step := tget ⟨0, [], false, [], 0, 0, [], none⟩ (s.die die).steps b

/-- Whether a STEPB of a block has issued and not posted its record (R213). -/
def State.stepbPending (s : State) (die b : Nat) : Bool := (s.stepOf die b).reqs.any fun q => q.kind != .stepe

/-- Whether the tile requests of a context wait for a STEPB of the block that its nest is bound to: an engine wait (R213). -/
def State.ntrHeld (s : State) (w : At) : Bool :=
  match s.taskOf w with
  | some t => t.nest && t.ben && s.stepbPending (dieOf w.core) t.block
  | none => false

/-- How a slot waits for an answer of the walker: as an engine wait while a STEPB holds the request (R213). -/
def State.ntrRun (s : State) (w : At) : Run := if s.ntrHeld w then .waiting else .stalled

/-- CESTAT (Table 05-4). -/
def Ctx.cestat (c : Ctx) : W64 :=
  let busy := ((List.range 4).filter fun q => c.copyq.any fun e => e.q == q).foldl (fun a q => a + 2 ^ q) 0
  mkW [(busy, 16), (c.eng.haltq % 16, 0)]

/-! ## Queue control blocks (R352) -/

/-- A word of a queue's QCB. -/
def State.qcbW (s : State) (q i : Nat) : W64 :=
  match tget? s.queues q with
  | some x => s.homeW (x.qcb + 8 * i)
  | none => 0

/-- Writes a word of a queue's QCB. -/
def State.setQcb (s : State) (q i : Nat) (v : W64) : State :=
  match tget? s.queues q with
  | some x => s.homeWrite (fld (s.qcbW q 1) 57 48) (x.qcb + 8 * i) (toBytes 8 v.toNat)
  | none => s

/-- STATE of a queue. -/
def State.qState (s : State) (q : Nat) : Nat := fld (s.qcbW q 1) 39 36

/-- Writes STATE and ERR of a queue. -/
def State.qSet (s : State) (q st err : Nat) : State := s.setQcb q 1 (setFld (setFld (s.qcbW q 1) 39 36 st) 15 0 err)

/-- Halts a queue with an ERR code (R352). -/
def State.qHalt (s : State) (q err : Nat) : State := s.qSet q 2 err

/-- Halts the queue that launched a task (R375, R400, R406). -/
def State.queueFault (s : State) (t : Task) : State :=
  match t.queue with
  | some (q, _) => s.qHalt q 2
  | none => s

/-- LOGFULL: pauses every active queue bound to a die, and tells the host (R371). -/
def State.logFull (s : State) (die : Nat) : State :=
  (s.queues.filter fun p => p.2.die == die && s.qState p.1 == 1).foldl (fun s p =>
    (s.qSet p.1 3 6).mail die 3 [BitVec.ofNat 64 p.1, 6]) s

/-- Halts every queue bound to a die, with REPLAYDIV (R371). -/
def State.replayDiv (s : State) (die : Nat) : State :=
  s.queues.foldl (fun s p => if p.2.die == die && s.qState p.1 != 0 then s.qHalt p.1 5 else s) s

/-! ## The decision trace (R369 to R371) -/

/-- Whether the ring is enabled: LOG2SZ 8 to 40. -/
def Trace.on (t : Trace) : Bool := 8 ≤ fld t.ctl 5 0 && fld t.ctl 5 0 ≤ 40
/-- LOSSY. -/
def Trace.lossy (t : Trace) : Bool := bit t.ctl 6
/-- Records the ring can still take. -/
def Trace.room (t : Trace) : Nat := 2 ^ fld t.ctl 5 0 - (t.head - t.tail)
/-- Whether a decision that logs n records may be performed (R371). -/
def State.mayDecide (s : State) (die n : Nat) : Bool :=
  let t := (s.die die).trace
  !t.on || t.lossy || n ≤ t.room

/-- Writes one ring position and advances HEAD (R369); the ring is translated in the ASID of the launch served (R60). -/
def State.traceWrite (s : State) (die asid : Nat) (ws : List W64) : State :=
  let t := (s.die die).trace
  let a := t.base + BitVec.ofNat 64 (32 * (t.head % 2 ^ fld t.ctl 5 0))
  let bs := (ws.map fun w => toBytes 8 w.toNat).flatten
  let s := match s.unitWrite .dispatch die asid a bs with
    | .ok s' => s'
    | .error _ => s
  s.updDie die fun d => { d with trace := { d.trace with head := d.trace.head + 1 } }

/-- W0 of a decision record (Table 15-12). -/
def decW0 (kind asid seq : Nat) : W64 := mkW [(kind, 58), (asid, 48), (seq % 2 ^ 48, 0)]

/-- Word w of the ring position k past HEAD; zeros where the ring's page cannot be read. -/
def State.recordedAt (s : State) (die asid k : Nat) : List W64 :=
  let t := (s.die die).trace
  match s.unitRead .dispatch die asid (BitVec.allOnes 64)
      (t.base + BitVec.ofNat 64 (32 * ((t.head + k) % 2 ^ fld t.ctl 5 0))) 32 with
  | .ok (bs, _) => (List.range 4).map fun i => w64 ((bs.drop (8 * i)).take 8)
  | .error _ => []

/-- The words of the recorded decision that comes next: that of sequence number HEAD. -/
def State.recorded (s : State) (die asid : Nat) : List W64 := s.recordedAt die asid 0

/-- Whether a die's decisions are to follow its trace: REPLAY with the ring enabled, and no GAP record passed. -/
def Trace.follow (t : Trace) : Bool := t.on && bit t.ctl 7 && !t.stopped

/-- Whether the recorded decision that comes next is a GAP, at which replay stops (R371). -/
def State.gapNext (s : State) (die asid : Nat) : Bool :=
  (s.die die).trace.follow && fld (wd (s.recorded die asid) 0) 63 58 == 10

/-- Whether a die's next decision is taken from its trace (R371). -/
def State.replays (s : State) (die asid : Nat) : Bool := (s.die die).trace.follow && !s.gapNext die asid

/-- DECISION_RECORD: counts a decision and appends its record and continuations, or drops them when the ring is full in
lossy mode, a GAP record going first once room returns (R369 to R371). -/
def State.decide (s : State) (die kind asid trid core ctx : Nat) (data : W64) (more : List (List W64)) : State :=
  let gap := s.gapNext die asid
  let s := s.updDie die fun d =>
    { d with trace := { d.trace with dcnt := tset d.trace.dcnt kind (satAdd 64 (tget 0 d.trace.dcnt kind) 1)
                                     stopped := d.trace.stopped || gap } }
  let t := (s.die die).trace
  if !t.on then s
  else
    let n := 1 + more.length + (if t.gap = 0 then 0 else 1)
    if t.room < n then
      s.updDie die fun d => { d with trace := { d.trace with gap := d.trace.gap + 1 + more.length } }
    else
      let cyc := BitVec.ofNat 64 s.cycle
      let s := if t.gap = 0 then s
        else (s.traceWrite die asid [decW0 10 0 t.head, 0, BitVec.ofNat 64 t.gap, cyc]).updDie die fun d =>
          { d with trace := { d.trace with gap := 0, dcnt := tset d.trace.dcnt 10 (satAdd 64 (tget 0 d.trace.dcnt 10) 1) } }
      let s := s.traceWrite die asid
        [decW0 kind asid (s.die die).trace.head, mkW [(trid % 2 ^ 24, 40), (core, 31), (ctx, 29)], data, cyc]
      more.foldl (fun s ws => s.traceWrite die asid ws) s

/-! ## Replay (R361, R371) -/

/-- Whether a decision of a kind on a context is the one that comes next; always, when the trace is not replayed. -/
def State.follows (s : State) (die asid kind core ctx : Nat) : Bool :=
  !s.replays die asid ||
  (let r := s.recorded die asid
   fld (wd r 0) 63 58 == kind && fld (wd r 1) 39 31 == core && fld (wd r 1) 30 29 == ctx)

/-- Whether a decision of a kind about a task on a context may be taken now: its record has room, and under replay it is the one that
comes next (R371). -/
def State.mayTake (s : State) (die asid kind trid core ctx : Nat) : Bool :=
  s.mayDecide die 1 && s.follows die asid kind core ctx &&
  (!s.replays die asid || fld (wd (s.recorded die asid) 1) 63 40 == trid % 2 ^ 24)

/-! ## Completion trees (R358) -/

/-- Nodes of a die's tree: the die 0, its clusters 1 and 2, sequencers 3 and 4, save lists 5 and 6, core k of the die at
10 + k. -/
def treeParent (n : Nat) : Nat :=
  if n = 1 || n = 2 then 0 else if n = 3 || n = 5 then 1 else if n = 4 || n = 6 then 2
  else if n < 74 then 1 else 2
/-- Node of a core. -/
def treeCore (core : Nat) : Nat := 10 + core % 128
/-- Node of a cluster's sequencer. -/
def treeSeq (clu : Nat) : Nat := 3 + clu % 2
/-- Node of a cluster's save list. -/
def treeSave (clu : Nat) : Nat := 5 + clu % 2

/-- Adds 1 to a node's count. -/
def treeAdd (t : Tab Nat) (n : Nat) : Tab Nat := tset t n (tget 0 t n + 1)

/-- inc(node): at most three levels (R358). -/
def treeInc : Nat → Tab Nat → Nat → Tab Nat
  | 0, t, _ => t
  | f + 1, t, n =>
    let t' := treeAdd t n
    if tget 0 t' n = 1 && n != 0 then treeInc f t' (treeParent n) else t'

/-- dec(node), and whether the tree has emptied (R358). -/
def treeDec : Nat → Tab Nat → Nat → Tab Nat × Bool
  | 0, t, _ => (t, false)
  | f + 1, t, n =>
    let t' := tset t n (tget 0 t n - 1)
    if tget 0 t' n = 0 then (if n = 0 then (t', true) else treeDec f t' (treeParent n)) else (t', false)

/-- GROUP_COMPLETE (R358): adds 1 at the group's address and empties the tree. -/
def State.groupDone (s : State) (die g : Nat) : State :=
  let s := s.updDie die fun d => { d with trees := tdel d.trees g }
  match tget? (s.die die).groups g with
  | some a => s.physAdd a.toNat 1
  | none => s

/-- Whether a task sequencer of a die holds a record that has not been read: it may be one of any group. -/
def State.unread (s : State) (die : Nat) : Bool := [2 * die, 2 * die + 1].any fun c => (s.clu c).seq.any (·.data.isNone)

/-- Completes the groups whose trees have emptied, once every record that has entered a sequencer has been read, and so counted in its
group's tree (R358). -/
def State.treeSettle (s : State) (die : Nat) : State :=
  if s.unread die then s
  else ((s.die die).trees.filter fun t => tget 0 t.2.c 0 == 0).foldl (fun s t => s.groupDone die t.1) s

/-- Applies inc, then dec, to nodes of a group's tree; group 0 is none. -/
def State.treeMove (s : State) (die g : Nat) (inc dec : Option Nat) : State :=
  if g = 0 then s
  else
    let t := (tget { c := [] } (s.die die).trees g).c
    let t := match inc with
      | some n => treeInc 3 t n
      | none => t
    let r := match dec with
      | some n => treeDec 3 t n
      | none => (t, false)
    let s := s.updDie die fun d => { d with trees := tset d.trees g { c := r.1 } }
    if r.2 && !s.unread die then s.groupDone die g else s

/-! ## Priorities (R365) -/

/-- Every context that holds a task. -/
def State.allCtxs (s : State) : List (At × Ctx) :=
  (s.cores.map fun k => (k.2.ctxs.filter fun c => c.2.trid.isSome).map fun c => (⟨k.1, c.1⟩, c.2)).flatten

/-- BASE, or BASE + 1 from 65,536 ready cycles in a row to the next issue (R365). -/
def Ctx.ownClass (c : Ctx) : Nat := min 3 (fld c.sys.prioclass 1 0 + c.sched.aged.toNat)

/-- Whether two contexts belong to one domain at a level. -/
def sameDom (a b : Ctx) (level : Nat) : Bool :=
  let x := tget 0 a.sys.dom level
  let y := tget 0 b.sys.dom level
  fld x 39 20 != 0 && fld y 39 20 != 0 && fld x 63 40 == fld y 63 40

/-- One round of inheritance from contexts in a SYNC wait (R365). -/
def effRound (l : List (At × Ctx × Nat)) : List (At × Ctx × Nat) :=
  l.map fun p => (p.1, p.2.1, l.foldl (fun m q => match q.2.1.sched.syncAt with
    | some lv => if sameDom p.2.1 q.2.1 lv then max m q.2.2 else m
    | none => m) p.2.2)

/-- A number of rounds of inheritance. -/
def effRounds : Nat → List (At × Ctx × Nat) → List (At × Ctx × Nat)
  | 0, l => l
  | n + 1, l => effRounds n (effRound l)

/-- PRIOCLASS.EFF (R365): a class reaches every context that inherits it in as many rounds as there are contexts. -/
def State.eff (s : State) (w : At) : Nat :=
  let l := s.allCtxs.map fun p => (p.1, p.2, p.2.ownClass)
  let l := effRounds l.length l
  ((l.find? fun p => p.1 == w).map (·.2.2)).getD (s.ctx w).ownClass

/-! ## System registers (Tables 11-3 and 11-4) -/

/-- The SEL values of Table 11-3, in order. -/
def sysSels : List Nat := [0, 1, 2, 3, 4, 5, 6, 7, 8, 9, 10, 16, 17, 18, 19, 20, 24, 25]

/-- What MFS reads (R246); none for a SEL not in the table. -/
def State.readSys (s : State) (w : At) (sel : Nat) : Option W64 :=
  let c := s.ctx w
  let y := c.sys
  match sel with
  | 0 => some y.taskid | 1 => some y.logidx | 2 => some (mkW [(w.core, 2), (w.ctx, 0)])
  | 3 => some y.asid | 4 => some y.kperm | 5 => some y.tvec | 6 => some y.tcause | 7 => some y.taddr
  | 8 => some y.tbundle | 9 => some y.tstate
  | 10 => some (mkW [(fld y.prioclass 5 4, 4), (s.eff w, 2), (fld y.prioclass 1 0, 0)])
  | 16 => some (tget 0 y.dom 0) | 17 => some (tget 0 y.dom 1) | 18 => some (tget 0 y.dom 2)
  | 19 => some (tget 0 y.dom 3) | 20 => some (tget 0 y.dom 4)
  | 24 => some y.codebase | 25 => some y.codelimit
  | _ => none

/-- What MTS does to a register (Table 11-3): 0 nothing listed, 1 ILLEGAL, 2 PRIV in task mode, 3 writes in either mode. -/
def mtsClass : Nat → Nat
  | 3 => 2 | 4 => 2 | 6 => 2 | 7 => 2 | 10 => 2 | 24 => 2 | 25 => 2
  | 5 => 3 | 8 => 3 | 9 => 3
  | _ => 1

/-- The bits of a system register that are not reserved (Table 11-4, Table 16-2); the others read 0 (R7). -/
def sysMask : Nat → W64
  | 0 => 0xFFFFFF#64
  | 1 => 0xFFFFFFFF#64
  | 3 => 0x3FF#64
  | 5 => ~~~3#64
  | 6 => 0xFFFF000000FFCFFF#64
  | 8 => ~~~3#64
  | 9 => 0xF01D#64
  | 10 => 0x33#64
  | 24 => ~~~3#64
  | 25 => ~~~3#64
  | _ => BitVec.allOnes 64

/-- The write of MTS, by the writable fields of Table 11-4 (R7, R248). -/
def Sys.write (y : Sys) (sel : Nat) (v : W64) : Sys :=
  let m := v &&& sysMask sel
  match sel with
  | 3 => { y with asid := m }
  | 4 => { y with kperm := m }
  | 5 => { y with tvec := m }
  | 6 => { y with tcause := m }
  | 7 => { y with taddr := m }
  | 8 => { y with tbundle := m }
  | 9 => { y with tstate := setFld y.tstate 4 3 (fld v 4 3) }
  | 10 => { y with prioclass := setFld y.prioclass 1 0 v.toNat }
  | 24 => { y with codebase := m }
  | 25 => { y with codelimit := m }
  | _ => y

/-! ## Engine registers as stored (R7) -/

/-- A word with its bits hi..lo as zeros: a reserved field (R7). -/
def rsvd (hi lo : Nat) (v : W64) : W64 := setFld v hi lo 0

/-- Word w of a matrix descriptor set as stored (Table 08-1). -/
def mdKeep (w : Nat) (v : W64) : W64 :=
  match w with
  | 0 => rsvd 42 20 v
  | 1 => rsvd 42 20 v
  | 2 => rsvd 63 52 (rsvd 31 20 v)
  | 3 => rsvd 40 32 v
  | 4 => rsvd 44 40 v
  | 5 => rsvd 63 48 v
  | 7 => rsvd 62 56 v
  | 8 => rsvd 62 56 v
  | _ => v

/-- Word w of a copy descriptor as stored (Table 05-3). -/
def cdKeep (w : Nat) (v : W64) : W64 := if w = 6 then rsvd 31 31 v else v
/-- Word w of a ring record as stored (Table 05-6). -/
def rtKeep (w : Nat) (v : W64) : W64 := if w = 1 then rsvd 62 29 v else if w = 3 then rsvd 63 32 v else v
/-- Word w of the placement window as stored (Table 06-3). -/
def plwKeep (w : Nat) (v : W64) : W64 :=
  if w = 2 then rsvd 31 0 v else if w = 6 then rsvd 50 48 (rsvd 23 16 v) else if w = 7 then rsvd 36 0 v else v
/-- Word w of a transport descriptor set as stored (Table 13-8). -/
def tdKeep (w : Nat) (v : W64) : W64 := if w = 1 then rsvd 32 32 v else if w = 3 then rsvd 18 16 v else v

end Sys2Proof.Machine
end

