-- ==== Sys2Proof/Machine/Save.lean ====
section
/-! DEFINITION. Setting results aside, taking a trap, stopping, saving and resuming a context (R192, R261 to R263,
R372 to R383). -/

namespace Sys2Proof.Machine

/-! ## The shadow result buffer (R378, R379) -/

/-- The group that a set-aside of a context takes. -/
def Ctx.grp (c : Ctx) : Nat := if c.inh then 1 else 0

/-- set_aside(n): results due before n have landed; the others enter the buffer with their deltas. -/
def Ctx.setAside (c : Ctx) (n : Nat) : Ctx :=
  let c := if n = 0 then c else c.landTo (n - 1)
  let new := c.pipe.inflight.map fun f => (⟨f.file, f.reg, f.mask, f.value, f.due - n, c.grp⟩ : Shadow)
  { c with pipe := { c.pipe with inflight := [], shadow := c.pipe.shadow ++ new } }

/-- An NTR whose answer is still to come when a trap is delivered at count n is set aside with its group. -/
def Ctx.asideNtr (c : Ctx) (n : Nat) : Ctx :=
  let put := fun (q : NtrReq) => { q with due := q.due - n, aside := some c.grp }
  { c with pipe := { c.pipe with ntr := mapIf (fun q => q.aside.isNone) put c.pipe.ntr } }

/-- replay(m, grp): the entries of a group go back in flight, due at m plus their deltas, and its NTRs are due so too. -/
def Ctx.replay (c : Ctx) (m grp : Nat) : Ctx :=
  let mine := c.pipe.shadow.filter fun e => e.grp == grp
  let fl := mine.foldl (fun l e => insertFlight l ⟨e.file, e.reg, e.mask, e.value, m + e.delta⟩) c.pipe.inflight
  let back := fun (q : NtrReq) => { q with due := m + q.due, aside := none }
  { c with pipe := { c.pipe with inflight := fl, shadow := c.pipe.shadow.filter fun e => e.grp != grp
                                 ntr := mapIf (fun q => q.aside == some grp) back c.pipe.ntr } }

/-- Lands the scoreboarded results that are ready, whatever the count (R379). -/
def Ctx.landReady (c : Ctx) : Ctx :=
  { c with regs := (c.pipe.sb.filter (·.ready)).foldl (fun r e => r.put e.file e.reg e.mask e.value) c.regs
           pipe := { c.pipe with sb := c.pipe.sb.filter fun e => !e.ready } }

/-- An answer of the walker to an NTR of a context that has stopped, or whose trap is being handled: it enters the buffer, or lands where
it was due before count n (R379). -/
def Ctx.keepNtr (c : Ctx) (n : Nat) (q : NtrReq) (v : W64) : Ctx :=
  let put := fun (delta g : Nat) =>
    { c with pipe := { c.pipe with shadow := c.pipe.shadow ++ [⟨.tl, q.tl, wholeMask, v.setWidth 2048, delta, g⟩] } }
  match q.aside with
  | some g => put q.due g
  | none => if q.due < n then { c with regs := c.regs.put .tl q.tl wholeMask (v.setWidth 2048) } else put (q.due - n) c.grp

/-- Lands the answers that a stopped context has been given (R379). -/
def Ctx.landNtr (c : Ctx) : Ctx :=
  c.pipe.ntr.foldl (fun c q => match q.ans with
    | none => c
    | some v => c.keepNtr c.pipe.count q v) { c with pipe := { c.pipe with ntr := c.pipe.ntr.filter fun q => q.ans.isNone } }

/-- Whether a context has settled: no scoreboarded result, NTR answer, started copy entry or install is awaited (R306, R379, R380). -/
def Ctx.settled (c : Ctx) : Bool :=
  c.pipe.sb.all (·.ready) && c.pipe.ntr.all (fun q => q.ans.isSome) && !(c.copyq.any (·.started)) && c.eng.plwPend.isNone

/-! ## The press at a stop (R192) -/

/-- Whether the started operations of a context, its MZEROs and its MCVTs have run to completion (R192). -/
def State.pressSettled (s : State) (w : At) : Bool :=
  let k := s.core w.core
  k.press.all (fun p => p.2.ops.all fun o => o.ctx != w.ctx || o.inPlace s.cycle) &&
  k.mzeros.all (fun z => z.ctx != w.ctx) && k.mcvts.all fun z => z.ctx != w.ctx

/-- Whether a stopped context has settled, so that it can be saved (R379, R380). -/
def State.settled (s : State) (w : At) : Bool := (s.ctx w).settled && s.pressSettled w

/-- Ends the operations of a settled context that wait for room in its event queue: it owes their records (R109, R192). -/
def State.settlePress (s : State) (w : At) : State :=
  ((s.core w.core).press).foldl (fun s p =>
    (p.2.ops.filter fun o => o.ctx == w.ctx).foldl (fun s o =>
      let s := (s.pressLand w.core p.1 o).pressDone w.core p.1 o
      if o.gated then
        s.postOrOwe w ⟨recW0 (fld (wd o.words 4) 39 24) 1 0 0 0 (o.region.m * o.region.n), 0⟩
      else s) s) s

/-- The hold of a context on a press, one that a resume has still to restore included: its region and cells (R192). -/
def Press.holdOf (p : Press) (ctx : Nat) : Option (Region × Tab W32) :=
  match p.held.find? fun h => h.ctx == ctx with
  | some h => some (h.region, h.cells)
  | none => match p.hold with
    | some h => if h.1 = ctx then some (h.2, p.cells) else none
    | none => none

/-- Whether a press is held by a context. -/
def Press.heldBy (p : Press) (ctx : Nat) : Bool := (p.holdOf ctx).isSome

/-! ## The save image (Table 16-4) -/

/-- Bits 21:0 of an MMA slot (Table 08-2). -/
def mmaBits (o : MmaOpd) : Nat :=
  o.p.toNat * 2 ^ 21 + o.z.toNat * 2 ^ 20 + o.w.toNat * 2 ^ 19 + o.a.toNat * 2 ^ 18 + o.set.toNat * 2 ^ 14 +
    o.vc.toNat * 2 ^ 12 + o.ef.toNat * 2 ^ 11

/-- The slot fields of bits 21:0. -/
def mmaOfBits (b : Nat) : MmaOpd :=
  { p := b.testBit 21, z := b.testBit 20, w := b.testBit 19, a := b.testBit 18, set := BitVec.ofNat 4 (b / 2 ^ 14),
    vc := BitVec.ofNat 2 (b / 2 ^ 12), ef := b.testBit 11 }

/-- FILE codes of Table 16-6. -/
def RFile.code : RFile → Nat
  | .x => 0 | .y => 1 | .v => 2 | .k => 3 | .a => 4 | .e => 5 | .tl => 6
/-- The file of a code. -/
def RFile.ofCode : Nat → RFile
  | 0 => .x | 1 => .y | 2 => .v | 3 => .k | 4 => .a | 5 => .e | _ => .tl

/-- The mask of a v piece. -/
def pieceMask (i : Nat) : VReg := BitVec.ofNat 2048 ((2 ^ 64 - 1) <<< (64 * i))

/-- A shadow entry of Table 16-6: 34 words. A value of part of a register is saved whole, with the register's own bits
elsewhere, and the bits it writes beside the image (log 11). -/
def shadowWords (r : Regs) (e : Shadow) : List W64 :=
  let piece := (List.range 32).find? fun i => e.mask == pieceMask i
  let isPiece := e.file == .v && piece.isSome
  let p := piece.getD 0
  let whole : VReg := if e.file == .v then merge e.mask (r.getV e.reg) e.value
    else merge e.mask ((r.get e.file e.reg).setWidth 2048) e.value
  let w0 := mkW [(e.file.code, 61), (e.reg, 56), (if isPiece then p else 0, 51), (if e.file == .v && !isPiece then 1 else 0, 50),
    (e.grp, 49), (e.delta % 32, 0)]
  let val : VReg := if isPiece then e.value >>> (64 * p) else whole
  w0 :: (List.range 32).map (fun i => (val >>> (64 * i)).setWidth 64) ++ [0]

/-- A shadow entry from its words, and the bits it writes where they were kept beside it. -/
def shadowOf (bits : Option VReg) (ws : List W64) : Shadow :=
  let w0 := wd ws 0
  let f := RFile.ofCode (fld w0 63 61)
  let whole := bit w0 50
  let v : Nat := (List.range 32).foldl (fun a i => a + (wd ws (1 + i)).toNat * 2 ^ (64 * i)) 0
  let p := fld w0 55 51
  { file := f, reg := fld w0 60 56, grp := fld w0 49 49, delta := fld w0 4 0,
    mask := bits.getD (if whole || f != .v then wholeMask else pieceMask p),
    value := if whole || f != .v then BitVec.ofNat 2048 v else BitVec.ofNat 2048 (v % 2 ^ 64 * 2 ^ (64 * p)) }

/-- A saved lees entry of Table 16-7: 40 words. -/
def leesWords (e : Lees) : List W64 :=
  let mask := e.data.foldl (fun m p => m ||| (1 <<< p.1)) 0
  let byte := fun i => ((e.data.find? fun p => p.1 == i).map (·.2)).getD 0
  let op := match e.op with
    | .store => 0 | .atadd => 1 | .atmin => 2 | .atmax => 3 | .atxch => 4 | .ator => 5 | .atand => 6
  [mkW [(e.trid, 40), (e.asid, 30), (op, 27), (if e.size = 8 then 1 else 0, 26), (e.stamp, 0)], e.va] ++
  (List.range 4).map (fun i => BitVec.ofNat 64 (mask >>> (64 * i))) ++
  [e.kperm, 0] ++
  (List.range 32).map fun i => w64 ((List.range 8).map fun j => byte (8 * i + j))

/-- A lees entry from its words, on what was kept beside the image of an entry of its stamp (log 11). -/
def leesOf (w : At) (c : Ctx) (away : List Lees) (ws : List W64) : Lees :=
  let w0 := wd ws 0
  let mask := (List.range 4).foldl (fun m i => m + (wd ws (2 + i)).toNat * 2 ^ (64 * i)) 0
  let data := ((List.range 256).filter fun i => mask.testBit i).map fun i =>
    (i, BitVec.ofNat 8 ((wd ws (8 + i / 8)).toNat >>> (8 * (i % 8))))
  let e := (away.find? fun e => e.stamp == fld w0 15 0).getD (leesFor w c c.pipe.pc)
  { e with
    ctx := w.ctx, trid := c.tridN, asid := fld w0 39 30, stamp := fld w0 15 0, va := wd ws 1, data := data,
    op := match fld w0 29 27 with
      | 0 => .store | 1 => .atadd | 2 => .atmin | 3 => .atmax | 4 => .atxch | 5 => .ator | _ => .atand
    size := if fld w0 29 27 = 0 then e.size else if bit w0 26 then 8 else 4, kperm := wd ws 6, ready := !e.remote || e.ready, failed := false }

/-- A saved copy entry: 16 words, the snapshot first (log 12). -/
def copyWords (e : CopyEnt) : List W64 :=
  let k := match e.kind with
    | .copy => (0, 0, 0)
    | .fence m i => (1, m, i)
    | .digest => (2, 0, 0)
  (List.range 8).map (wd e.words) ++
  [mkW [(e.q, 0), (k.1, 4), (k.2.1, 8), (e.evt.toNat, 12), (e.asid, 16), (e.tag, 32), (e.status, 48)], e.kperm,
   match e.ring with
   | none => 0
   | some r => mkW [(1, 63), (r.1, 32), (r.2 % 2 ^ 32, 0)],
   BitVec.ofNat 64 k.2.2, 0, 0, 0, 0]

/-- A copy entry from its words. -/
def copyOf (ws : List W64) : CopyEnt :=
  let w := wd ws 8
  { kind := match fld w 7 4 with
      | 0 => .copy
      | 1 => .fence (fld w 11 8) (wd ws 11).toNat
      | _ => .digest
    q := fld w 3 0, words := (ws.take 8).zipIdx.map fun p => if fld w 7 4 = 0 then cdKeep p.2 p.1 else p.1, tag := fld w 47 32, evt := bit w 12, kperm := wd ws 9, asid := fld w 25 16,
    ring := if bit (wd ws 10) 63 then some (fld (wd ws 10) 62 32, fld (wd ws 10) 31 0) else none,
    started := false, next := 0, paused := none, status := fld w 51 48, fkind := 0, addr := 0, ended := false, sigs := 0, sums := [] }

/-- The walker's words (Table 16-11). -/
def Slice.words (x : Slice) (block : Nat) : List W64 :=
  [mkW [(x.lo, 32), (x.hi, 0)], mkW [(x.pos, 32), (x.reslice.toNat, 2), (x.have_.toNat, 1)],
   mkW [(x.stepno, 48), (block, 0)], 0]

/-- The unstarted MMAGs of a context, in press order, with their presses. -/
def Core.mmagsOf (k : Core) (ctx : Nat) : List (Nat × PressOp) :=
  (k.press.map fun p => (p.2.mmags.filter fun o => o.ctx == ctx).map fun o => (p.1, o)).flatten

/-- A list of words at an offset. -/
def atOff (off : Nat) (ws : List W64) : List (Nat × W64) := ws.zipIdx.map fun p => (off + 8 * p.2, p.1)

/-- The words of the save area but for the buffer images (Tables 16-4 and 16-5). -/
def State.imageWords (s : State) (w : At) (kind : Nat) : List (Nat × W64) :=
  let k := s.core w.core
  let c := s.ctx w
  let r := c.regs
  let e := c.eng
  let lees := k.lees.filter fun x => x.ctx == w.ctx
  let mm := k.mmagsOf w.ctx
  let blk := ((s.taskOf w).map fun t => if t.ben then t.block else 0).getD 0
  let holds := ((if (k.pressOf 0).heldBy w.ctx then 1 else 0) + (if (k.pressOf 1).heldBy w.ctx then 2 else 0) : Nat)
  let syncn := (List.range 5).map fun l => (tget 0 c.sched.syncN l % 4096, 12 * l)
  let tab := fun (t : Tab W64) (n : Nat) => (List.range n).map (tget 0 t)
  let cells := fun p =>
    let t := (((k.pressOf p).holdOf w.ctx).map (·.2)).getD []
    (List.range 4096).map fun i => mkW [((tget 0 t (2 * i + 1)).toNat, 32), ((tget 0 t (2 * i)).toNat, 0)]
  atOff 0 [mkW [(1, 60), (kind, 56), (c.pipe.shadow.length, 48), (lees.length, 40), (mm.length, 35),
      (c.copyq.length, 28), (idOf c.tridN, 0)], c.pipe.pc, BitVec.ofNat 64 c.stamp,
    mkW [(c.phase, 4), (c.pipe.ntrPtr, 2), (holds, 0)], mkW syncn, BitVec.ofNat 64 c.sched.kiter] ++
  atOff 0x100 ((List.range 32).map r.getX) ++ atOff 0x200 ((List.range 32).map r.getY) ++
  atOff 0x300 ((List.range 8).map r.getK ++ (List.range 16).map r.getA ++ (List.range 8).map r.getE) ++
  atOff 0x400 ((List.range 4).map r.getTl ++ c.slice.words blk) ++
  atOff 0x440 (sysSels.map fun n => (s.readSys w n).getD 0) ++
  atOff 0x600 ((c.pipe.loops.reverse.map fun l => [l.start, l.stop, BitVec.ofNat 64 l.rem, 0]).flatten) ++
  atOff 0x700 (tab e.rt 64) ++ atOff 0x900 (tab e.cd 64) ++ atOff 0xB00 (tab e.md 144) ++
  atOff 0x1000 (tab e.td 64 ++ tab e.plw 8 ++ [e.plwstat, e.tpctl] ++ tab e.tpv 4 ++ [c.cestat, e.dg]) ++
  atOff 0x1400 ((c.evq.map fun x => [x.w0, x.w1]).flatten) ++
  ((mm.zipIdx.map fun q => atOff (0x1800 + 128 * q.2)
    ((List.range 9).map (wd q.1.2.words) ++ [BitVec.ofNat 64 (mmaBits q.1.2.o), BitVec.ofNat 64 q.1.1]))).flatten ++
  ((c.copyq.zipIdx.map fun q => atOff (0x2000 + 128 * q.2) (copyWords q.1))).flatten ++
  ((List.range 32).map fun i => atOff (0x4000 + 256 * i)
    ((List.range 32).map fun j => (r.getV i >>> (64 * j)).setWidth 64)).flatten ++
  ((c.pipe.shadow.zipIdx.map fun q => atOff (0x6000 + 272 * q.2) (shadowWords r q.1))).flatten ++
  ((lees.zipIdx.map fun q => atOff (0xA400 + 320 * q.2) (leesWords q.1))).flatten ++
  (if (k.pressOf 0).heldBy w.ctx then atOff 0x10000 (cells 0) else []) ++
  (if (k.pressOf 1).heldBy w.ctx then atOff 0x18000 (cells 1) else [])

/-- Replaces n bytes of memory from a physical base by a buffer's contents. -/
def State.putBuffer (s : State) (pa n : Nat) (b : Memory) : State :=
  let rest := s.mem.filter fun c => !(pa ≤ c.1 && c.1 < pa + n)
  { s with mem := mwriteCells rest ((b.filter fun c => c.1 < n).map fun c => (pa + c.1, c.2)) }

/-- n bytes of memory from a physical base, as a buffer. -/
def State.takeBuffer (s : State) (pa n : Nat) : Memory :=
  (s.mem.filter fun c => pa ≤ c.1 && c.1 < pa + n).map fun c => (c.1 - pa, c.2)

/-- Writes the image (R380 step 6). -/
def State.writeImage (s : State) (w : At) (kind : Nat) (save : Nat) (keep : Bool) : State :=
  let c := s.ctx w
  let words := s.imageWords w kind
  let s := s.putBuffer save 0x10000 []
  let s := words.foldl (fun s p => s.homeWrite c.asid (save + p.1) (toBytes 8 p.2.toNat)) s
  if keep then s
  else
    let k := s.core w.core
    ((s.putBuffer (save + 0x20000) (2 ^ 20) k.wb).putBuffer (save + 0x120000) (2 ^ 20) k.ab).putBuffer (save + 0x220000)
      (2 ^ 19) k.cb

/-- Posts a record to a task, wherever it is: in its event queue, in the event-queue image of its save area while it is
away (R148), or owed while that queue is full (R109). A task that has ended takes none. -/
def State.postTo (s : State) (trid : Nat) (r : Rec) : State :=
  match tget? s.tasks trid with
  | none => s
  | some t =>
    if t.saved then
      if t.evqAway < 64 then
        (s.homeWrite t.asid (t.save.toNat + 0x1400 + 16 * t.evqAway)
          (toBytes 8 r.w0.toNat ++ toBytes 8 r.w1.toNat)).updTask trid fun t => { t with evqAway := t.evqAway + 1 }
      else s.updTask trid fun t => { t with owed := t.owed ++ [r] }
    else
      s.postOrOwe ⟨t.core, t.ctx⟩ r

/-! ## Stopping (R380) -/

/-- Empties the place a saved context held. -/
def State.vacate (s : State) (w : At) : State :=
  s.updCore w.core fun k =>
    { k with ctxs := tset k.ctxs w.ctx Ctx.reset
             lees := k.lees.filter fun e => e.ctx != w.ctx
             press := k.press.map fun p => (p.1, { p.2 with
               hold := if (p.2.hold.map (·.1)) == some w.ctx then none else p.2.hold
               held := p.2.held.filter fun h => h.ctx != w.ctx
               mmags := p.2.mmags.filter fun o => o.ctx != w.ctx }) }

/-- Whether a deferred trap is that of a lees entry that fails its check: the entry's next try finds it again (R68). -/
def Trap.ofLees (t : Trap) : Bool := (t.cause == 6 || t.cause == 7) && !t.remote && t.fkind != 6

/-- A stop tries every local entry of its context (R70); those whose page is not present are left, those that wait for something are
tried again in each cycle. -/
def State.readyLees (s : State) (w : At) : State :=
  let mine := fun (e : Lees) => e.ctx == w.ctx && !e.remote
  (s.updCore w.core fun k => { k with lees := mapIf mine (fun e => { e with ready := true }) k.lees }).replay w.core mine false

/-- Whether an entry of a context that stops may still replay before the save: none that comes before it waits for a page (R70). -/
def State.leesToCome (s : State) (w : At) : Bool :=
  let l := (s.core w.core).lees
  l.any fun e => e.ctx == w.ctx && !e.remote && e.ready && !e.failed &&
    (l.takeWhile fun x => !e.same x).all fun x => x.ready || !(x.ctx == e.ctx || (x.asid == e.asid && x.va == e.va))

/-- Whether a stop of a context may be finished: it has settled, every entry that can replay has replayed, and the trace takes the
decision of a pre-emption (R70, R371). -/
def State.stopReady (s : State) (w : At) (st : Stop) : Bool :=
  let c := s.ctx w
  s.settled w && !s.leesToCome w && (st.kind == 3 || s.mayTake (dieOf w.core) c.asid (if st.kind = 2 then 2 else 3) c.tridN w.core w.ctx)

/-- The completion words of pre-emption commands that are over (R368). -/
def State.cmdsDone (s : State) (die asid : Nat) (l : List W64) : State := l.foldl (fun s a => s.cmdDone die asid a) s

/-- Finishes a stop of a settled context: presses, lees entries, image, decision or fault record (R375, R376, R380); a DIGEST
trap halts the task's queue (R406). A deferred trap that it still owes is taken at its first boundary after the resume (R377). -/
def State.finishStop (s : State) (w : At) (st : Stop) : State :=
  let s := s.updCtx w fun c => (c.landReady).landNtr
  let s := s.settlePress w
  let s := s.replay w.core (fun e => e.ctx == w.ctx && !e.remote) false
  let s := (s.goAll (s.ctx w).tridN).cacheAll
  let c := s.ctx w
  let k := s.core w.core
  let die := dieOf w.core
  let trid := c.tridN
  let prev := s.taskOf w
  let holds := k.press.filterMap fun p => (p.2.holdOf w.ctx).map fun h => (p.1, h.1)
  let s := s.writeImage w st.kind st.save.toNat st.keep
  let s := s.updTask trid fun t => { t with saved := true, resident := st.keep, save := st.save, holds := holds,
                                            extents := c.extents, phases := c.phases, owed := c.owed,
                                            waitSync := c.sched.syncAt, evqAway := c.evq.length
                                            leesAway := k.lees.filter fun e => e.ctx == w.ctx
                                            maskAway := c.pipe.shadow.map (·.mask)
                                            mmagAway := (k.mmagsOf w.ctx).map (·.2)
                                            trapAway := c.sched.deferred.filter fun t => !t.ofLees
                                            ecc := t.ecc || (st.kind == 3 && fld c.sys.tcause 7 0 == 21) ||
                                                   c.sched.deferred.any fun t => t.cause == 21 }
  let g := (prev.map (·.cgrp)).getD 0
  let s := s.treeMove die g (some (treeSave (clusterOf w.core))) (some (treeCore w.core))
  let s := s.vacate w
  if st.kind = 3 then
    let s := match prev with
      | some t => if fld c.sys.tcause 7 0 = 23 then s.queueFault t else s
      | none => s
    (s.mail die 0 [mkW [(trid, 40), (w.core, 31), (w.ctx, 29), (c.asid, 19)], c.sys.tcause, c.sys.taddr, c.sys.tbundle,
      st.save, BitVec.ofNat 64 s.cycle, 0, 0]).cmdsDone die c.asid st.donep
  else
    let kind := if st.kind = 2 then 2 else 3
    let s := s.decide die kind c.asid trid w.core w.ctx
      (if st.kind = 2 then BitVec.ofNat 64 c.sched.kiter else if st.soft then 1 else 0) []
    s.cmdsDone die c.asid st.donep

/-- The contexts of the other members of a context's gang that are on a core and not already asked to stop. -/
def State.gangFellows (s : State) (w : At) : List At :=
  match (s.taskOf w).bind (·.gang) with
  | none => []
  | some g => ((s.allCtxs.filter fun p => p.1 != w && p.2.sched.stop.isNone && p.2.sched.preempt.isNone).map (·.1)).filter fun v =>
      (((s.taskOf v).bind (·.gang)).map (·.1)) == some g.1

/-- A gang is stopped whole: its other members are asked to stop, each into its own save area (R351, R380; log 66). -/
def State.askFellows (s : State) (w : At) (hard : Bool) : State :=
  (s.gangFellows w).foldl (fun s v =>
    let t := s.taskOf v
    let p : Preempt := { hard := hard, since := s.cycle, issued := false, save := (t.map (·.save)).getD 0,
                         keep := (t.map (·.keep)).getD false, donep := [], drain := false }
    s.updSched v fun k => { k with preempt := some p }) s

/-- Stops issue at the boundary and sets results aside; the save follows once the context has settled (R379, R380). -/
def State.stopAt (s : State) (w : At) (st : Stop) : State :=
  let s := s.updCtx w fun c => c.setAside c.pipe.count
  let s := s.updSched w fun k => { k with run := .held, stop := some st, preempt := none, ending := none, hold := none }
  let s := (s.askFellows w true).readyLees w
  if s.stopReady w st then s.finishStop w st else s

/-! ## Traps (R261, R262, R372 to R377) -/

/-- TCAUSE of a trap (Table 16-2). -/
def Trap.tcause (t : Trap) : W64 :=
  mkW [(t.code % 65536, 48), (t.acc, 20), (t.remote.toNat, 19), (t.deferred.toNat, 18), (t.lane.isSome.toNat, 17),
    (t.lane.getD 0, 14), (t.fkind, 8), (t.cause, 0)]

/-- Whether a trap is delivered to the handler (R262). -/
def Ctx.delivers (c : Ctx) (t : Trap) : Bool :=
  !t.deferred &&
  (t.cause == 26 || t.cause == 25 || t.cause == 20 || (t.cause == 13 && bit c.sys.tstate 3)) &&
  c.sys.tvec != 0 && !c.inh

/-- Writes the trap registers (R374): bundle, its words, and RESUME. -/
def Sys.trapRegs (y : Sys) (t : Trap) (bundle : W64) (len : Nat) (resume : Bool) : Sys :=
  { y with tcause := t.tcause, taddr := t.addr, tbundle := bundle &&& ~~~3#64,
           tstate := setFld (setFld y.tstate 15 12 len) 4 4 resume.toNat }

/-- Takes a trap at a boundary (R262, R375): `bundle` and `len` are those that the trap registers name. The state is that
before the results due at the boundary's count have landed. -/
def State.takeTrap (s : State) (w : At) (t : Trap) (bundle : W64) (len : Nat) : State :=
  let c := s.ctx w
  let resume := t.cause == 25 || t.cause == 26
  let s1 := (s.spendFail w t).updSys w fun y => y.trapRegs t bundle len resume
  if c.delivers t then
    let s2 := s1.updCtx w fun c => (c.asideNtr c.pipe.count).setAside c.pipe.count
    let s3 := s2.updSys w fun y => { y with tstate := setFld y.tstate 2 2 1 }
    (s3.updPipe w fun p => { p with pc := c.sys.tvec &&& ~~~3#64 }).updSched w fun k => { k with run := .ready, hold := none }
  else
    let own := s.taskOf w
    let st : Stop := { kind := 3, save := (own.map (·.save)).getD 0, keep := (own.map (·.keep)).getD false, donep := [],
                       soft := false }
    (s1.updSched w fun k => { k with hold := none }).stopAt w (match c.sched.preempt with
      | some p => { st with keep := p.keep, donep := p.donep }
      | none => st)

/-- RTT (R263): the handler ends and grp 0 is replayed from the bundle it resumes, at count m. The trap registers are those that its
bundle reads (R248). -/
def Ctx.rtt (c : Ctx) (y : Sys) (m : Nat) : Ctx :=
  let pc := y.tbundle + BitVec.ofNat 64 (if bit y.tstate 4 then 4 * fld y.tstate 15 12 else 0)
  let c := { c with sys := { c.sys with tstate := setFld c.sys.tstate 2 2 0 }, pipe := { c.pipe with pc := pc } }
  c.replay m 0

/-! ## Resuming (R380) -/

/-- A word of a save area. -/
def State.imgW (s : State) (save off : Nat) : W64 := s.homeW (save + off)
/-- Words of a save area. -/
def State.imgWs (s : State) (save off n : Nat) : List W64 := (List.range n).map fun i => s.imgW save (off + 8 * i)
/-- A table of words that drops zeros. -/
def tabOf (ws : List W64) : Tab W64 := (ws.zipIdx.filter fun p => p.1 != 0).map fun p => (p.2, p.1)

/-- System registers of an image, in SEL order; reserved bits read 0 (R7). -/
def sysOfImage (ws : List W64) : Sys :=
  let r := fun i => wd ws i &&& sysMask (sysSels.getD i 0)
  { taskid := r 0, logidx := r 1, asid := r 3, kperm := r 4, tvec := r 5, tcause := r 6, taddr := r 7, tbundle := r 8,
    tstate := r 9, prioclass := r 10, dom := tabOf ((List.range 5).map fun i => r (11 + i)), codebase := r 16,
    codelimit := r 17 }

/-- A table of engine register words as stored, n words a set. -/
def keepTab (keep : Nat → W64 → W64) (n : Nat) (ws : List W64) : Tab W64 :=
  tabOf (ws.zipIdx.map fun p => keep (p.2 % n) p.1)

/-- The context that an image holds, before replay. -/
def State.ctxOfImage (s : State) (save : Nat) (t : Task) (trid : Nat) : Ctx :=
  let h := s.imgWs save 0 8
  let at1 := s.imgWs save 0x1000 80
  let nsh := fld (wd h 0) 55 48
  let ncp := fld (wd h 0) 34 28
  let vreg := fun i => BitVec.ofNat 2048 (ofBytes (s.homeRead (save + 0x4000 + 256 * i) 256))
  let k300 := s.imgWs save 0x300 32
  let wk := s.imgWs save 0x420 4
  let loop := fun i => let l := s.imgWs save (0x600 + 32 * i) 3
    (⟨wd l 0, wd l 1, (wd l 2).toNat⟩ : LoopEnt)
  let loops := ((List.range 6).map loop).filter fun l => l.rem != 0
  { Ctx.reset with
    regs := { x := tabOf (s.imgWs save 0x100 32), y := tabOf (s.imgWs save 0x200 32),
              v := ((List.range 32).map fun i => (i, vreg i)).filter fun p => p.2 != 0,
              k := tabOf (k300.take 8), a := tabOf ((k300.drop 8).take 16), e := tabOf (k300.drop 24),
              tl := tabOf (s.imgWs save 0x400 4) }
    sys := sysOfImage (s.imgWs save 0x440 18)
    eng := { Eng.reset with
             rt := keepTab rtKeep 4 (s.imgWs save 0x700 64), cd := keepTab cdKeep 8 (s.imgWs save 0x900 64),
             md := keepTab mdKeep 9 (s.imgWs save 0xB00 144), td := keepTab tdKeep 4 (at1.take 64),
             plw := keepTab plwKeep 8 ((at1.drop 64).take 8), plwstat := rsvd 63 4 (wd at1 72), tpctl := rsvd 63 17 (wd at1 73),
             tpv := tabOf ((at1.drop 74).take 4), haltq := (wd at1 78).toNat % 16, dg := wd at1 79 }
    pipe := { Pipe.reset with
              pc := wd h 1, ntrPtr := fld (wd h 3) 3 2, loops := loops.reverse,
              shadow := (List.range nsh).map fun i => shadowOf t.maskAway[i]? (s.imgWs save (0x6000 + 272 * i) 34) }
    sched := { Sched.reset with
               run := .ready, kiter := (wd h 5).toNat, syncAt := t.waitSync, deferred := t.trapAway,
               syncN := ((List.range 5).map fun l => (l, fld (wd h 4) (12 * l + 11) (12 * l))).filter fun p => p.2 != 0 }
    evq := (List.range t.evqAway).map fun i => (⟨s.imgW save (0x1400 + 16 * i), s.imgW save (0x1408 + 16 * i)⟩ : Rec)
    owed := t.owed
    copyq := (List.range ncp).map fun i => copyOf (s.imgWs save (0x2000 + 128 * i) 16)
    stamp := fld (wd h 2) 15 0, phase := fld (wd h 3) 7 4, phases := t.phases, extents := t.extents
    slice := { lo := fld (wd wk 0) 63 32, hi := fld (wd wk 0) 31 0, pos := fld (wd wk 1) 63 32,
               reslice := bit (wd wk 1) 2, have_ := bit (wd wk 1) 1, stepno := fld (wd wk 2) 63 48 }
    trid := some trid }

/-- Restores a saved context on a core (R192, R367, R380): buffers, registers, presses, copy entries, lees entries, then
replay from the saved pc, and of the entries whose pages are now mapped (R68). An MMAG that comes back stands in its press's queue
ahead of the others, and the BANK checks of R184 are not made again (log 50); the buffer addresses in its registers stay as they are (log
67); lees entries come back
to the core's log whether or not it has 64 positions free for them (log 53). -/
def State.resumeCtx (s : State) (w : At) (trid : Nat) (t : Task) (save : Nat) : State :=
  let h := s.imgWs save 0 8
  let c := s.ctxOfImage save t trid
  let c := c.replay c.pipe.count (if c.inh then 1 else 0)
  let nle := fld (wd h 0) 47 40
  let nmm := fld (wd h 0) 39 35
  let lees := (List.range nle).map fun i => leesOf w c t.leesAway (s.imgWs save (0xA400 + 320 * i) 40)
  let mm := (List.range nmm).map fun i =>
    let ws := s.imgWs save (0x1800 + 128 * i) 11
    let op : PressOp := { ctx := w.ctx, trid := trid, asid := t.asid, gated := true,
                          words := (ws.take 9).zipIdx.map fun p => mdKeep p.2 p.1,
                          o := mmaOfBits (wd ws 9).toNat, start := 0, cycles := 0, results := [], issued := 0, cut := [],
                          init := [], ended := false }
    let op := match t.mmagAway[i]? with
      | some a => { op with asid := a.asid, issued := a.issued, cut := a.cut, init := a.init, ended := a.ended }
      | none => op
    (fld (wd ws 10) 0 0, { op with cycles := mdK op.words / max 1 (mdKr op.words) })
  let cells := fun (p : Nat) => ((s.imgWs save (0x10000 + 0x8000 * p) 4096).zipIdx.map fun (q : W64 × Nat) =>
    [(2 * q.2, (BitVec.ofNat 32 q.1.toNat : W32)), (2 * q.2 + 1, BitVec.ofNat 32 (q.1.toNat / 2 ^ 32))]).flatten
  let heldRegion := fun (p : Nat) => ((t.holds.find? fun q => q.1 == p).map (·.2)).getD
    (mdRegion ((List.range 9).map fun i => tget 0 c.eng.md i) false)
  let s := s.updCtx w fun _ => c
  let s := s.updCore w.core fun k =>
    { k with lees := k.lees ++ lees
             wb := if t.resident then k.wb else s.takeBuffer (save + 0x20000) (2 ^ 20)
             ab := if t.resident then k.ab else s.takeBuffer (save + 0x120000) (2 ^ 20)
             cb := if t.resident then k.cb else s.takeBuffer (save + 0x220000) (2 ^ 19) }
  let s := [0, 1].foldl (fun s p =>
    s.updPress w.core p fun x =>
      let mine := (mm.filter fun q => q.1 == p).map (·.2)
      let x := { x with mmags := mine ++ x.mmags }
      if (fld (wd h 3) 1 0).testBit p then
        ({ x with held := x.held ++ [⟨w.ctx, heldRegion p, cells p⟩] } : Press).rehold
      else x) s
  let s := s.updTask trid fun t => { t with saved := false, core := w.core, ctx := w.ctx, die := dieOf w.core }
  let thaw := fun (r : HeldRel) => if r.trid == trid && !(t.trapAway.any fun x => x.cause == 9) then { r with frozen := false } else r
  ({ s with releases := s.releases.map thaw } : State).settleLees w.core

/-! ## The log of a task that may be away (R65, R66, R150, R151) -/

/-- The lees entries in the save image of a task: 40 words each (Table 16-7). -/
def State.awayLees (s : State) (t : Task) : List (List W64) :=
  (List.range (fld (s.homeW t.save.toNat) 47 40)).map fun i => s.imgWs t.save.toNat (0xA400 + 320 * i) 40

/-- Writes the lees entries of a save image, and their number. -/
def State.setAway (s : State) (t : Task) (es : List (List W64)) : State :=
  let base := t.save.toNat
  let s := es.zipIdx.foldl (fun (s : State) e =>
    s.homeWrite t.asid (base + 0xA400 + 320 * e.2) (e.1.map fun w => toBytes 8 w.toNat).flatten) s
  s.homeWrite t.asid base (toBytes 8 (setFld (s.homeW base) 47 40 es.length).toNat)

/-- The stamp that the next entry of a saved task takes. -/
def State.awayNext (s : State) (t : Task) : Nat := fld (s.homeW (t.save.toNat + 0x10)) 15 0

/-- The entries of a task that is away, with the marks that stand beside its image. -/
def State.awayEnts (s : State) (t : Task) : List Lees :=
  (s.awayLees t).map fun ws => { leesOf ⟨t.core, t.ctx⟩ Ctx.reset t.leesAway ws with asid := t.asid }

/-- Writes the entries of a task that is away: those of its image, and their marks. -/
def State.putAway (s : State) (trid : Nat) (t : Task) (es : List Lees) : State :=
  (s.setAway t (es.map fun e => leesWords { e with trid := trid })).updTask trid fun t => { t with leesAway := es }

/-- Adds an entry to the log of a task that is away: to its image, with its marks beside it (Table 16-7, log 11). -/
def State.logAway (s : State) (t : Task) (e : Lees) : State :=
  let e := { e with stamp := s.awayNext t }
  let s := s.setAway t (s.awayLees t ++ [leesWords e])
  let w := s.homeW (t.save.toNat + 0x10)
  let s := s.homeWrite t.asid (t.save.toNat + 0x10) (toBytes 8 (setFld w 15 0 ((e.stamp + 1) % 65536)).toNat)
  s.updTask e.trid fun t => { t with leesAway := t.leesAway ++ [e] }

/-- The entry of a global store or reduction that faulted at its target, before its block is known. -/
def remoteEnt (ctx asid : Nat) (a : GAcc) : Lees :=
  { ctx := ctx, trid := a.trid, asid := asid, stamp := 0, va := 0, data := [], op := if a.op = 4 then .store else leesOpOf a.atop,
    size := a.size, kperm := a.kperm, scope := if a.sync then 4 else 8, bundle := a.bundle, rel := a.sync && a.op == 4,
    acq := a.acq, vec := a.vec, remote := true, grp := a.grp, ready := false, failed := false, after := a.id }

/-- An entry of one store's elements takes the bytes of another: a later element's bytes stand (R295). -/
def Lees.take (e : Lees) (cells : List (Nat × Byte)) : Lees :=
  { e with data := e.data.filter (fun p => !(cells.any fun q => q.1 == p.1)) ++ cells }

/-- A global store or reduction that faulted at its target enters the lees log (R65, R150): the elements of one store that lie in a
block share its entry, and bytes that a later store of the context has already been sent for are left to that one (R328). -/
def State.logRemote (s : State) (a : GAcc) : State :=
  let bs := if a.op = 4 then a.data.map (·.2) else toBytes a.size a.wdata
  let later := (s.openAccs a.trid).filter fun b => a.id < b.id && b.op == 4 && a.op == 4
  let cellsOf := fun (b : Nat) => (cellsIn a.va bs b).filter fun p =>
    !(later.any fun x => x.va.toNat ≤ b * 256 + p.1 && b * 256 + p.1 < x.va.toNat + x.size)
  let mine := fun (ctx b : Nat) (x : Lees) => x.remote && x.ctx == ctx && x.grp == a.grp && a.grp.isSome && x.op == .store &&
    a.op == 4 && x.va.toNat == b * 256
  (blocksOf a.va bs.length).foldl (fun (s : State) b =>
    let cells := cellsOf b
    if cells.isEmpty then s
    else match s.whereIs a.trid, tget? s.tasks a.trid with
    | some w, _ =>
      if (s.core w.core).lees.any (mine w.ctx b) then
        s.updCore w.core fun k => { k with lees := mapIf (mine w.ctx b) (Lees.take · cells) k.lees }
      else s.logBlock w (remoteEnt w.ctx (s.ctx w).asid a) b cells
    | none, some t =>
      let es := s.awayEnts t
      if es.any (mine t.ctx b) then s.putAway a.trid t (mapIf (mine t.ctx b) (Lees.take · cells) es)
      else s.logAway t { remoteEnt t.ctx t.asid a with va := BitVec.ofNat 64 (b * 256), data := cells }
    | none, none => s) s

/-- The bytes of an entry but for those of an access that has been performed; nothing of a reduction. -/
def Lees.without (e : Lees) (a : GAcc) : Lees :=
  { e with data := if e.op == .store then e.data.filter fun p =>
      !(a.va.toNat ≤ e.va.toNat + p.1 && e.va.toNat + p.1 < a.va.toNat + a.size) else [] }

/-- Changes the log entries of a stamp of a task, in its core's log or in its image; an entry left without bytes leaves it. -/
def State.updEntry (s : State) (trid stamp : Nat) (f : Lees → Lees) : State :=
  let keep := fun (mine : Lees → Bool) (l : List Lees) => (mapIf mine f l).filter fun e => !(mine e && e.data.isEmpty)
  match s.whereIs trid, tget? s.tasks trid with
  | some w, _ => s.updCore w.core fun k => { k with lees := keep (fun e => e.ctx == w.ctx && e.stamp == stamp) k.lees }
  | none, some t => s.putAway trid t (keep (fun e => e.stamp == stamp) (s.awayEnts t))
  | none, none => s

/-- What a core's log can do next, for a task that is on a core. -/
def State.settleTask (s : State) (trid : Nat) : State :=
  match s.whereIs trid with
  | some w => s.settleLees w.core
  | none => s

/-- An access that sends an entry again has been performed: its bytes leave the entry, and an empty entry leaves the log (R66). -/
def State.leesDone (s : State) (a : GAcc) (stamp : Nat) : State :=
  (s.updEntry a.trid stamp fun e => e.without a).settleTask a.trid

/-- An access that sends an entry again is refused or cut off: the entry leaves the log, and the releases held behind it stay
invisible (R151, R341). -/
def State.leesLost (s : State) (a : GAcc) (stamp : Nat) : State :=
  ((s.freezeFrom a.trid stamp).updEntry a.trid stamp fun e => { e with data := [] }).settleTask a.trid

end Sys2Proof.Machine
end

