-- ==== Sys2Proof/Machine/Issue.lean ====
section
/-! DEFINITION. What a slot does, and how a bundle issues: the checks of R221, the stalls of R233 and R234, the next bundle
of R256, and the fetch of words through the instruction buffer and the L1 instruction cache (R86 to R89). -/

namespace Sys2Proof.Machine

/-! ## Code words (R86 to R89) -/

/-- The physical address of a code word, with its policy (R89). -/
def State.codeXlate (s : State) (w : At) (va : W64) : Except Nat Xl :=
  let c := s.ctx w
  if isGlobal va then .error 5
  else match s.xlate w c.asid (c.extentFor va.toNat 4) va .fetch 0 with
    | .ok x => .ok x
    | .error f => .error f.cause.2

/-- A code word: from the instruction buffer, the L1 instruction cache, or its home; else the cause and fault kind of the trap of
check 1. Across a fenced host link it traps HOSTLINK (R398, log 62). -/
def State.codeWord (s : State) (w : At) (va : W64) : Except (Nat × Nat) W32 :=
  match tget? (s.ctx w).pipe.ibuf va.toNat with
  | some v => .ok v
  | none => match s.codeXlate w va with
    | .error k => .error (5, k)
    | .ok x => match tget? (s.core w.core).l1i (x.pa / 128) with
      | some l => .ok (BitVec.ofNat 32 (l.toNat >>> (8 * (x.pa % 128))))
      | none =>
        if s.hostLinkBad w x va 4 false then .error (22, 0)
        else .ok (BitVec.ofNat 32 (ofBytes (s.homeAccess x (s.ctx w).asid 4 false).1))

/-- What the fetch of a code word waits for: the bias of the pages that its translation walks, and that of its own line (R387). -/
def State.codeWait (s : State) (w : At) (va : W64) : Option (State → State) :=
  if !s.coherentHost || isGlobal va || (tget? (s.ctx w).pipe.ibuf va.toNat).isSome then none
  else
    let c := s.ctx w
    (s.coreWalkWait w.core c.asid (c.extentFor va.toNat 4) va 4).or (match s.codeXlate w va with
      | .error _ => none
      | .ok x => if (tget? (s.core w.core).l1i (x.pa / 128)).isSome then none else s.homeWait x false 4)

/-- What the fetch of a bundle waits for, word by word to its last. -/
def State.bundleWait (s : State) (w : At) : Nat → W64 → Option (State → State)
  | 0, _ => none
  | n + 1, va =>
    if !s.coherentHost || va < (s.ctx w).sys.codebase || !(va < (s.ctx w).sys.codelimit) then none
    else match s.codeWait w va with
      | some f => some f
      | none => match s.codeWord w va with
        | .error _ => none
        | .ok v => if v.getLsbD 31 then none else s.bundleWait w n (va + 4)

/-- Lists a line in the L1 instruction cache: 4 ways of 128 sets (R71). A full set gives up its lowest-numbered line: the spec names
no replacement for this cache (log 3). -/
def Core.allocL1i (k : Core) (line : Nat) (d : BitVec 1024) : Core :=
  if (tget? k.l1i line).isSome then k
  else
    let set := k.l1i.filter fun p => p.1 % 128 == line % 128
    let k := if set.length < 4 then k else { k with l1i := tdel k.l1i ((set.head?.map (·.1)).getD 0) }
    { k with l1i := tset k.l1i line d }

/-- The effect of fetching a word: it enters the instruction buffer, which keeps 4 KiB up to it, and its line enters the
L1 instruction cache unless its page has CPOL 10 or lies behind the non-coherent host path (R86, R390). -/
def State.fetchFill (s : State) (w : At) (va : W64) : State :=
  match tget? (s.ctx w).pipe.ibuf va.toNat, s.codeWord w va, s.codeXlate w va with
  | none, .ok v, .ok x =>
    let s := s.coreFill w.core (s.ctx w).asid va.toNat
    let r := s.homeAccess { x with pa := x.pa / 128 * 128 } (s.ctx w).asid 128 false
    let s := if (tget? (s.core w.core).l1i (x.pa / 128)).isSome then s
      else if x.cpol = 2 || s.nonCoherent x then r.2
      else r.2.updCore w.core fun k => k.allocL1i (x.pa / 128) (BitVec.ofNat 1024 (ofBytes r.1))
    s.updPipe w fun p =>
      { p with ibuf := tset (p.ibuf.filter fun q => q.1 ≤ va.toNat + 4092 && va.toNat ≤ q.1 + 4092) va.toNat v }
  | _, _, _ => s

/-- Prefetches up to n words in sequence, while they lie at most 4 KiB beyond `last`, below CODELIMIT and in a page that
translates (R86). -/
def State.prefetch (s : State) (w : At) (last : W64) : Nat → State
  | 0 => s
  | n + 1 =>
    let a := (s.ctx w).pipe.pf
    if !(a.toNat ≤ last.toNat + 4096 && a < (s.ctx w).sys.codelimit) || (s.codeWait w a).isSome then s
    else match s.codeWord w a with
      | .error _ => s
      | .ok _ => ((s.fetchFill w a).updPipe w fun p => { p with pf := a + 4 }).prefetch w last n

/-- The words of a bundle from an address, as far as it extends: at most 8, ending with the first whose bit 31 is 1
(R220); a word that cannot be read gives the trap of check 1 (R89). -/
def State.bundleWords (s : State) (w : At) : Nat → W64 → Except Trap (List W32)
  | 0, _ => .ok []
  | n + 1, va =>
    let y := (s.ctx w).sys
    if va < y.codebase || !(va < y.codelimit) then
      .error { trapAt 4 0 0 0 va with lane := none }
    else match s.codeWord w va with
      | .error k => .error { trapAt k.1 5 k.2 0 va with lane := none }
      | .ok v =>
        if v.getLsbD 31 then .ok [v]
        else match s.bundleWords w n (va + 4) with
          | .ok l => .ok (v :: l)
          | .error t => .error t

/-- Words of the bundle at an address, at most n, up to its last or, where one cannot be read, up to and with that one. -/
def State.wordsUpTo (s : State) (w : At) : Nat → W64 → Nat
  | 0, _ => 0
  | n + 1, va =>
    let y := (s.ctx w).sys
    if va < y.codebase || !(va < y.codelimit) then 1
    else match s.codeWord w va with
      | .error _ => 1
      | .ok v => if v.getLsbD 31 then 1 else 1 + s.wordsUpTo w n (va + 4)

/-- Words of the bundle at an address, as TSTATE.LEN names them (R374; log 13 where a word cannot be read). -/
def State.lenAt (s : State) (w : At) (va : W64) : Nat := s.wordsUpTo w 8 va

/-- The address after the first word at or beyond an address whose bit 31 is 1, or that of the first word that cannot be read
(R255). -/
def State.afterStop (s : State) (w : At) : Nat → W64 → W64
  | 0, va => va
  | n + 1, va => match s.codeWord w va with
    | .ok v => if v.getLsbD 31 then va + 4 else s.afterStop w n (va + 4)
    | .error _ => va

/-! ## What a slot does -/

/-- What the BR slot does to control (R250 to R263). -/
inductive Ctl where
  | seq
  | branch (drain : Bool) (target : Option W64) (call : Bool)
  | loop (count stop : Nat)
  | rtt (drain : Bool)
  | halt
  | done
  | trap (cause code : Nat)
  deriving DecidableEq, Repr

/-- The meaning of a slot: its lane and words; check 3; the END of a loop slot (R255); check 4 by mode; the registers it reads and writes and whether its
results are scoreboarded, and the fixed-latency results that `pends` counts beside them; its stalls, with their class and what they do to the state; check 5; its fixed-latency results
and its other effects, both from the state at issue; and its control. -/
structure SlotSem where
  lane    : Nat
  words   : Nat := 1
  pends   : Nat := 0
  ill     : Bool := false
  loop    : Option Nat := none
  priv    : Bool → Bool := fun _ => false
  reads   : List (RFile × Nat) := []
  writes  : List (RFile × Nat) := []
  sb      : Bool := false
  wait    : At → State → Option (Run × (State → State)) := fun _ _ => none
  trap5   : At → State → Option Trap := fun _ _ => none
  results : At → State → List Res := fun _ _ => []
  effect  : At → State → State → State := fun _ _ s => s
  ctl     : At → State → Ctl := fun _ _ => .seq

/-- Whether a register of a file may be named (R217). -/
def regOk (f : RFile) (n : Nat) : Bool := n < fileSize f

/-- Whether a destination is a discarded register. -/
def deadReg (f : RFile) (n : Nat) : Bool := n == 0 && (f == .x || f == .y || f == .k)

/-- A bundle's registers for the rules of R233 and R234. -/
def SlotSem.stalls (p : Pipe) (sl : SlotSem) : Bool :=
  sl.reads.any (fun r => p.scoreboarded r.1 r.2) ||
  sl.writes.any (fun r => !deadReg r.1 r.2 && p.scoreboarded r.1 r.2) ||
  (sl.sb && sl.writes.any fun r => !deadReg r.1 r.2 && p.flying r.1 r.2)

/-- The first slot, in lane order, that a test finds. -/
def firstSlot {α : Type} (sls : List SlotSem) (f : SlotSem → Option α) : Option α := sls.findSome? f

/-! ## The next bundle (R251 to R256) -/

/-- Entries whose bodies a taken branch leaves are popped (R256). -/
def leaveLoops (pc t : W64) : List LoopEnt → List LoopEnt
  | [] => []
  | e :: l =>
    if e.start ≤ pc && pc ≤ e.stop && !(e.start ≤ t && t ≤ e.stop) then leaveLoops pc t l else e :: l

/-- The loops that end in this bundle are counted down or popped (R256). -/
def closeLoops (pc seq : W64) : List LoopEnt → List LoopEnt × W64
  | [] => ([], seq)
  | e :: l =>
    if pc ≤ e.stop && e.stop < seq then
      if 1 < e.rem then ({ e with rem := e.rem - 1 } :: l, e.start) else closeLoops pc seq l
    else (e :: l, seq)

/-- next_bundle and the issue count after a bundle of nw words issued at count n under the system registers y (R231, R248, R252,
R256). -/
def State.advance (s : State) (w : At) (y : Sys) (nw : Nat) (ctl : Ctl) (n : Nat) : State :=
  let p := (s.ctx w).pipe
  let pc := p.pc
  let seq := pc + BitVec.ofNat 64 (4 * nw)
  let go := fun (count : Nat) (r : List LoopEnt × W64) =>
    s.updPipe w fun p => { p with count := count, loops := r.1, pc := r.2 }
  match ctl with
  | .seq => go (n + 1) (closeLoops pc seq p.loops)
  | .trap _ _ => go (n + 1) (closeLoops pc seq p.loops)
  | .branch d none _ => go (if d then p.drainTo n else n + 1) (closeLoops pc seq p.loops)
  | .branch d (some t) call =>
    go (if d then p.drainTo n else n + 1) (if call then p.loops else leaveLoops pc t p.loops, t)
  | .loop c stop =>
    let last := pc + BitVec.ofNat 64 (4 * stop)
    if c = 0 then go (n + 1) (p.loops, s.afterStop w ((y.codelimit.toNat - last.toNat + 3) / 4) last)
    else go (n + 1) (⟨seq, last, c⟩ :: p.loops, seq)
  | .rtt d =>
    let m := if d then p.drainTo n else n + 1
    s.updCtx w fun c => { c with pipe := { c.pipe with count := m } }.rtt y m
  | .halt => s.updPipe w fun p => { p with count := p.drainTo n }
  | .done => s.updPipe w fun p => { p with count := n + 1 }

/-! ## Issue -/

/-- A stall: the context stays at its bundle (R363). The cycles of a stall are counted by STALL_SWITCH_COUNT. -/
def State.stallAt (s : State) (w : At) (r : Run) (f : State → State) : State :=
  (f s).updSched w fun k => { k with run := r, stalled := if k.run == .stalled then k.stalled else 0, readyFor := 0 }

/-- The trap that a boundary owes: the oldest deferred trap (R377). TBUNDLE is the access's bundle where the trap names one,
else the resume point; LEN counts the words there. -/
def State.suspend (s : State) (w : At) : State :=
  match (s.ctx w).sched.deferred with
  | [] => s
  | t :: l =>
    let s := s.updSched w fun k => { k with deferred := l }
    let b := t.bundle.getD (s.ctx w).pipe.pc
    s.takeTrap w t b (s.lenAt w b)

/-- A kernel iteration is counted at CODEBASE + 4·KER of a task with a loop record (R366). -/
def State.countKernel (s : State) (w : At) (pc : W64) : State :=
  match s.taskOf w with
  | some t => if t.lren && pc == t.codebase + BitVec.ofNat 64 (4 * t.ker) then
      s.updSched w fun k => { k with kiter := k.kiter + 1 } else s
  | none => s

/-- Whether results in flight, answers of the walker that are awaited, results set aside and new ones exceed the buffer in a handler
(R378). -/
def shadowFull (c : Ctx) (new : Nat) : Bool :=
  c.inh && 64 < c.pipe.inflight.length + c.pipe.ntr.length + c.pipe.shadow.length + new

/-- The result that CALL adds to its bundle (R254). -/
def callRes (ctl : Ctl) (pc : W64) (nw : Nat) : List Res :=
  match ctl with
  | .branch _ _ true => [Res.w .x 31 (pc + BitVec.ofNat 64 (4 * nw)) 1]
  | _ => []

/-- Whether a bundle of nw words that holds LOOP or LOOPX contains the end word of the top entry (R257). -/
def SlotSem.closesTop (sl : SlotSem) (p : Pipe) (nw : Nat) : Bool :=
  sl.loop.isSome && match p.loops with
    | [] => false
    | e :: _ => p.pc ≤ e.stop && e.stop < p.pc + BitVec.ofNat 64 (4 * nw)

/-- What a bundle does once every check has passed: its results, its effects in lane order, and the next bundle. -/
def State.retire (s1 : State) (w : At) (sls : List SlotSem) (nw : Nat) : State :=
  let n := (s1.ctx w).pipe.count
  let pc := (s1.ctx w).pipe.pc
  let ctl := ((firstSlot sls fun sl => match sl.ctl w s1 with
    | .seq => none
    | c => some c)).getD .seq
  let s2 := sls.foldl (fun s sl => sl.effect w s1 (s.updPipe w fun p => p.push n (sl.results w s1))) s1
  let s2 := s2.updPipe w fun p => p.push n (callRes ctl pc nw)
  let s3 := s2.advance w (s1.ctx w).sys nw ctl n
  let s4 := (s3.countKernel w pc).updSched w fun k =>
    { k with run := .ready, stalled := 0, readyFor := 0, aged := false,
             preempt := k.preempt.map fun q => { q with issued := true },
             ending := match ctl with
               | .halt => some (0, 0)
               | _ => k.ending }
  match ctl with
  | .trap cause code => s4.takeTrap w { trapAt cause 0 0 7 0 with code := code } pc nw
  | _ => s4

/-- Checks 3 and 4 of R221: ILLEGAL, then PRIV, each for the slots in lane order. -/
def earlyTrap (sup : Bool) (sls : List SlotSem) (nw : Nat) : Option Trap :=
  match firstSlot sls fun sl =>
      if sl.ill || (match sl.loop with
        | some e => Nat.blt e nw
        | none => false) then some sl.lane else none with
  | some l => some (trapAt 1 0 0 l 0)
  | none => (firstSlot sls fun sl => if sl.priv sup then some sl.lane else none).map fun l => trapAt 3 0 0 l 0

/-- The stall that holds a bundle at issue, with what it does to the state. -/
def State.stallOf (s1 : State) (w : At) (sls : List SlotSem) : Option (Run × (State → State)) :=
  if sls.any (SlotSem.stalls (s1.ctx w).pipe) then some (.stalled, id) else firstSlot sls fun sl => sl.wait w s1

/-- Fixed-latency results that a slot adds (Table 10-16). -/
def SlotSem.adds (sl : SlotSem) (w : At) (s : State) : Nat :=
  (sl.results w s).length + sl.pends + match sl.ctl w s with
    | .branch _ _ true => 1
    | _ => 0

/-- The slot whose results no longer fit the shadow buffer, `n` being those of the slots before it (R374, R378). -/
def State.fullAt (s : State) (w : At) : List SlotSem → Nat → Option Nat
  | [], _ => none
  | sl :: l, n => if shadowFull (s.ctx w) (n + sl.adds w s) then some sl.lane else s.fullAt w l (n + sl.adds w s)

/-- Check 5 of R221, and the room of the shadow buffer in a handler (R378), which is judged last (log 13). -/
def State.lateTrap (s1 : State) (w : At) (sls : List SlotSem) (nw : Nat) : Option Trap :=
  let c := s1.ctx w
  match firstSlot sls fun sl => if sl.closesTop c.pipe nw then some (trapAt 15 0 0 sl.lane 0) else sl.trap5 w s1 with
  | some t => some t
  | none => (s1.fullAt w sls 0).map fun lane => trapAt 27 0 0 lane 0

/-- Whether a soft pre-emption drains a context at its boundary (R366). -/
def Ctx.draining (c : Ctx) : Bool := c.sched.preempt.any (·.drain)

/-- A context whose issue is not stopped: it holds a task, is neither held, ending nor drained, and owes no deferred trap. -/
def Ctx.mayIssue (c : Ctx) : Bool :=
  c.sched.run != .idle && c.sched.run != .held && c.sched.ending.isNone && !c.draining && c.sched.deferred.isEmpty

/-- The state as a bundle reads it: results due at its count have landed (R231). -/
def State.landed (s : State) (w : At) : State := s.updCtx w fun c => c.landTo c.pipe.count

/-- Issue of the slots of one bundle of nw words (R221): a trap is taken on the state whose due results have not landed, so
that set_aside sees them (R379). -/
def State.issueBundle (s : State) (w : At) (sls : List SlotSem) (nw : Nat) : State :=
  let c := s.ctx w
  if !c.mayIssue then (if c.sched.run == .idle || c.sched.run == .held || c.sched.ending.isSome then s else s.suspend w)
  else match earlyTrap c.sup sls nw with
  | some t => s.takeTrap w t c.pipe.pc nw
  | none => match (s.landed w).stallOf w sls with
    | some (r, f) => s.stallAt w r f
    | none => match (s.landed w).lateTrap w sls nw with
      | some t => s.takeTrap w t c.pipe.pc nw
      | none => (s.landed w).retire w sls nw

/-- The one-slot bundle of a slot, issued by the context that holds issue on the focus core (log 1). -/
def issueOne (sl : SlotSem) (s : State) : Host.Outcome State Fault Refusal :=
  match s.cur with
  | none => .next s
  | some w => .next (s.issueBundle w [sl] sl.words)

end Sys2Proof.Machine
end

