-- ==== Sys2Proof/Machine/Operands.lean ====
section
/-! DEFINITION. The operand forms of the slots: scalar files, immediates, buffer addresses and element addresses (R222 to
R227, R290, R294). -/

namespace Sys2Proof.Machine

/-- The register file of a scalar lane. -/
def sfile : SFile → RFile
  | .x => .x | .y => .y

/-- The lane of a scalar slot (Table 10-3). -/
def slane : SFile → Nat
  | .x => 0 | .y => 1

/-- A register of a scalar file. -/
def Regs.getS (r : Regs) (f : SFile) (n : R5) : W64 := r.get (sfile f) n.toNat

/-- Operand b: a register, or the sign-extended immediate (R240). -/
def Regs.opd (r : Regs) (f : SFile) : SOpd → W64
  | .reg b => r.getS f b
  | .imm n => n.signExtend 64

/-- The shift amount: b[5:0] or IMM12[5:0] (R240). -/
def Regs.shamt (r : Regs) (f : SFile) : SOpd → Nat
  | .reg b => (r.getS f b).toNat % 64
  | .imm n => n.toNat % 64

/-- The register that operand b reads. -/
def opdReads (f : SFile) : SOpd → List (RFile × Nat)
  | .reg b => [(sfile f, b.toNat)]
  | .imm _ => []

/-- A shift by an immediate reserves bits 11:6 (R223). -/
def shiftIll : SOpd → Bool
  | .reg _ => false
  | .imm n => 64 ≤ n.toNat

/-- The element addresses of an LX access with a stride (R294). -/
def strideElems (base stride : W64) (w : Nat) (k : W64) : List (Nat × W64) :=
  ((List.range (elemCount w)).filter (active k w)).map fun i => (i, base + BitVec.ofNat 64 i * stride)

/-- The element addresses of an LX access with an index register (R294). -/
def indexElems (base : W64) (ix : VReg) (w : Nat) (k : W64) : List (Nat × W64) :=
  ((List.range (elemCount w)).filter (active k w)).map fun i => (i, base + BitVec.ofNat 64 (elem ix w i * (w / 8)))

/-- Element width of an ESZ code (R225). -/
def eszWidth (e : BitVec 2) : Nat := 8 * 2 ^ e.toNat

/-- The buffer address word of an LB access, and whether its offset with the displacement stays in the address's 25 bits (R290). Where
it does not, no buffer address word can name the place that R94 asks TADDR to name, and the model gives the base's word without the
displacement (log 61). -/
def lbAddr (space : BitVec 2) (a : W64) (disp : BitVec 10) (n : Nat) : W64 × Bool :=
  let off : Int := (bufOff a : Int) + disp.toInt * (n : Int)
  let w := setFld (setFld a 63 60 space.toNat) 24 0 off.toNat
  (if 0 ≤ off ∧ off < 2 ^ 25 then w else setFld a 63 60 space.toNat, decide (0 ≤ off ∧ off < 2 ^ 25))

/-! ## Phase sets of a deterministic task (R344 to R346) -/

/-- Whether an entry of the open phase lets an engine touch a byte of a buffer (R346). -/
def PhaseEnt.allows (e : PhaseEnt) (phase engine : Nat) (write : Bool) (space core off : Nat) : Bool :=
  e.phase == phase && e.engine == engine && (!write || e.write) && bufSpace e.addr == space &&
  (space == 3 || fld e.addr 59 54 == core % 64) && bufOff e.addr ≤ off && off < bufOff e.addr + e.bytes

/-- The first byte of an access outside the phase sets, as a buffer address; none for a task without the deterministic
flag (R346). -/
def State.phaseBad (s : State) (w : At) (engine : Nat) (write : Bool) (space core off n : Nat) : Option W64 :=
  let c := s.ctx w
  if !(((s.taskOf w).map (·.det)).getD false) then none
  else ((List.range n).find? fun i => !(c.phases.any fun e => e.allows c.phase engine write space core (off + i))).map
    fun i => bufWord space (if space = 3 then 0 else core) (off + i)

/-- The OVERLAP trap of an access by a slot of a lane (R346). -/
def State.phaseTrap (s : State) (w : At) (lane acc engine : Nat) (write : Bool) (space core off n : Nat) : Option Trap :=
  (s.phaseBad w engine write space core off n).map fun a => trapAt 10 acc 0 lane a

end Sys2Proof.Machine
end

