-- ==== Sys2Proof/Machine/Flags.lean ====
section
/-! DEFINITION. The machine keeps no flags (R23, R240); conditions are values in registers. The computations that other
machines give to flags stand here: compares, uniform branch conditions and vector conditions (R241, R253, R273). -/

namespace Sys2Proof.Machine

/-- A truth value in a register. -/
def truth (b : Bool) : W64 := if b then 1 else 0

/-- BKALL and BKNONE (R253): taken, not taken, or not uniform. -/
def uniform (k : W64) (want : Bool) : Option Bool :=
  if k = BitVec.allOnes 64 then some want else if k = 0 then some (!want) else none

/-- The condition of VCMP on two elements (R273). -/
def vcond (c fmt a b : Nat) : Bool :=
  let x := elemValue fmt a
  let y := elemValue fmt b
  if x == .nan || y == .nan then c == 1
  else match c with
  | 0 => Num.cmp x y == .eq
  | 1 => Num.cmp x y != .eq
  | 2 => Num.cmp x y == .lt
  | _ => Num.cmp x y != .gt

end Sys2Proof.Machine
end

