-- ==== Sys2Proof/Machine/Branch.lean ====
section
/-! DEFINITION. The BR lane: branches, calls, loops, waiting for events, yielding, traps taken on purpose, and the end of a
task by HALT (R250 to R263, R320). -/

namespace Sys2Proof.Machine

open Sys2Proof

/-- A BR slot (Table 10-3: lane 7). -/
def slotBr (ctl : At → State → Ctl) : SlotSem := { lane := 7, ctl := ctl }

/-- The target of a branch: the bundle's address plus 4·sext(OFF) (R251). -/
def State.target (s : State) (w : At) {n : Nat} (off : BitVec n) : W64 :=
  (s.ctx w).pipe.pc + 4#64 * off.signExtend 64

/-- A branch to a target, or none when it is not taken. -/
def branchIf (d taken : Bool) (t : W64) : Ctl := .branch d (if taken then some t else none) false

/-! ## Ending a task (R320) -/

/-- Whether a press has an operation, started or waiting, of a context, or is held by it. -/
def Press.busyFor (p : Press) (ctx : Nat) : Bool :=
  p.ops.any (fun o => o.ctx == ctx) || p.mmags.any (fun o => o.ctx == ctx) || p.heldBy ctx

/-- The conditions of R320: no lees entry and no held release, empty copy queues, no MX operation or held press, and no
transport operation that has not completed. Its end releases, so no global access of its is unanswered and no cache operation of its
is outstanding (R79, R334). -/
def State.mayEnd (s : State) (w : At) : Bool :=
  let c := s.ctx w
  let k := s.core w.core
  !s.hasLees w && !s.hasHeld c.tridN && !s.globalOpen w false && !s.cacheBusy c.tridN && c.copyq.isEmpty &&
  !(k.press.any fun p => p.2.busyFor w.ctx) && !(k.mzeros.any fun z => z.ctx == w.ctx) &&
  !(k.mcvts.any fun z => z.ctx == w.ctx) &&
  !((s.die (dieOf w.core)).tx.ops.any fun o => o.core == w.core && o.ctx == w.ctx && o.trid == c.tridN)

/-- The engine wait of an ending slot (R320). -/
def State.endWait (s : State) (w : At) : Option (Run × (State → State)) :=
  if s.mayEnd w then none else some (.waiting, id)

/-! ## The slots -/

/-- NOP (R260). -/
def slotNop : SlotSem := slotBr fun _ _ => .seq

/-- BRA (R251, R252). -/
def slotBra (dr : Bool) (off : BitVec 21) : SlotSem := slotBr fun w s => branchIf dr true (s.target w off)

/-- BZ (R253). -/
def slotBz (dr : Bool) (f : SFile) (r : R5) (off : BitVec 15) : SlotSem :=
  { slotBr (fun w s => branchIf dr (((s.ctx w).regs.getS f r) == 0) (s.target w off)) with reads := [(sfile f, r.toNat)] }

/-- BNZ (R253). -/
def slotBnz (dr : Bool) (f : SFile) (r : R5) (off : BitVec 15) : SlotSem :=
  { slotBr (fun w s => branchIf dr (((s.ctx w).regs.getS f r) != 0) (s.target w off)) with reads := [(sfile f, r.toNat)] }

/-- A branch on a uniform mask; NONUNIFORM at check 5 (R253). -/
def slotUniform (dr want : Bool) (k : BitVec 3) (off : BitVec 18) : SlotSem :=
  { slotBr (fun w s => branchIf dr ((uniform ((s.ctx w).regs.getK k.toNat) want).getD false) (s.target w off)) with
    reads := [(.k, k.toNat)]
    trap5 := fun w s => if (uniform ((s.ctx w).regs.getK k.toNat) want).isNone then some (trapAt 13 0 0 7 0) else none }

/-- BKALL (R253). -/
def slotBkall (dr : Bool) (k : BitVec 3) (off : BitVec 18) : SlotSem := slotUniform dr true k off

/-- BKNONE (R253). -/
def slotBknone (dr : Bool) (k : BitVec 3) (off : BitVec 18) : SlotSem := slotUniform dr false k off

/-- CALL (R254). -/
def slotCall (dr : Bool) (off : BitVec 21) : SlotSem :=
  { slotBr (fun w s => .branch dr (some (s.target w off)) true) with writes := [(.x, 31)] }

/-- RET (R254): to x31 with bits 1:0 taken as 0. -/
def slotRet (dr : Bool) : SlotSem :=
  { slotBr (fun w s => branchIf dr true (((s.ctx w).regs.getX 31) &&& ~~~3#64)) with reads := [(.x, 31)] }

/-- LOOPSTACK of a count: a seventh entry, or a count of 2³¹ or more (R257). -/
def loopTrap (p : Pipe) (c : Nat) : Option Trap :=
  if (1 ≤ c && 6 ≤ p.loops.length) || 2 ^ 31 ≤ c then some (trapAt 15 0 0 7 0) else none

/-- The count of a LOOP slot (R255). -/
def loopCount (r : Regs) : LoopCnt → Nat
  | .imm n => n.toNat
  | .reg x => (r.getX x.toNat).toNat

/-- The registers that a LOOP count reads. -/
def loopReads : LoopCnt → List (RFile × Nat)
  | .imm _ => []
  | .reg x => [(.x, x.toNat)]

/-- LOOP (R255 to R257). -/
def slotLoop (c : LoopCnt) (stop : BitVec 10) : SlotSem :=
  { slotBr (fun w s => .loop (loopCount (s.ctx w).regs c) stop.toNat) with
    loop := some stop.toNat, reads := loopReads c,
    trap5 := fun w s => loopTrap (s.ctx w).pipe (loopCount (s.ctx w).regs c) }

/-- LOOPX (R255 to R257). -/
def slotLoopx (count : BitVec 31) (stop : BitVec 21) : SlotSem :=
  { slotBr (fun _ _ => .loop count.toNat stop.toNat) with
    words := 2, loop := some stop.toNat, trap5 := fun w s => loopTrap (s.ctx w).pipe count.toNat }

/-- HALT (R260): waits as DONE does, drains, and ends the task with status 0 and no completion address. -/
def slotHalt : SlotSem := { slotBr (fun _ _ => .halt) with wait := fun w s => s.endWait w }

/-- TRAP (R261). -/
def slotTrap (code : BitVec 16) : SlotSem := slotBr fun _ _ => .trap 25 code.toNat

/-- BREAK (R261). -/
def slotBrk (code : BitVec 16) : SlotSem := slotBr fun _ _ => .trap 26 code.toNat

/-- RTT (R263): PRIV outside a handler. -/
def slotRtt (dr : Bool) : SlotSem :=
  { slotBr (fun _ _ => .rtt dr) with
    trap5 := fun w s => if (s.ctx w).inh then none else some (trapAt 3 0 0 7 0) }

/-- WAITEV (R258). -/
def slotWaitev (r : R5) : SlotSem :=
  { slotBr (fun _ _ => .seq) with
    ill := r.toNat % 2 == 1, writes := [(.x, r.toNat), (.x, r.toNat + 1)]
    wait := fun w s => if (s.ctx w).evq.isEmpty then some (.waiting, id) else none
    results := fun w s => match (s.ctx w).evq with
      | [] => []
      | e :: _ => [Res.w .x r.toNat e.w0 1, Res.w .x (r.toNat + 1) e.w1 1]
    effect := fun w _ s => s.updCtx w fun c =>
      { c with evq := c.evq.drop 1 ++ c.owed.take 1, owed := c.owed.drop 1 } }

/-- YIELD (R259). -/
def slotYield : SlotSem :=
  { slotBr (fun _ _ => .seq) with effect := fun w _ s => s.updCore w.core fun k => { k with yielded := true } }

/-- PRIO (R259): PRIV in task mode above PRIOCLASS.MAX. -/
def slotPrio (c : BitVec 2) : SlotSem :=
  { slotBr (fun _ _ => .seq) with
    trap5 := fun w s =>
      let x := s.ctx w
      if !x.sup && fld x.sys.prioclass 5 4 < c.toNat then some (trapAt 3 0 0 7 0) else none
    effect := fun w _ s => s.updSys w fun y => { y with prioclass := setFld y.prioclass 1 0 c.toNat } }

/-- IFENCE (R88). -/
def slotIfence : SlotSem :=
  { slotBr (fun _ _ => .seq) with
    effect := fun w _ s =>
      (s.updPipe w fun p => { p with ibuf := [] }).updCore w.core fun k => { k with l1i := [] } }

/-! ## The meanings -/

/-- NOP. -/
def execNop (s : State) := issueOne slotNop s
/-- BRA. -/
def execBra (dr : Bool) (off : BitVec 21) (s : State) := issueOne (slotBra dr off) s
/-- BZ. -/
def execBz (dr : Bool) (f : SFile) (r : R5) (off : BitVec 15) (s : State) := issueOne (slotBz dr f r off) s
/-- BNZ. -/
def execBnz (dr : Bool) (f : SFile) (r : R5) (off : BitVec 15) (s : State) := issueOne (slotBnz dr f r off) s
/-- BKALL. -/
def execBkall (dr : Bool) (k : BitVec 3) (off : BitVec 18) (s : State) := issueOne (slotBkall dr k off) s
/-- BKNONE. -/
def execBknone (dr : Bool) (k : BitVec 3) (off : BitVec 18) (s : State) := issueOne (slotBknone dr k off) s
/-- CALL. -/
def execCall (dr : Bool) (off : BitVec 21) (s : State) := issueOne (slotCall dr off) s
/-- RET. -/
def execRet (dr : Bool) (s : State) := issueOne (slotRet dr) s
/-- LOOP. -/
def execLoop (c : LoopCnt) (stop : BitVec 10) (s : State) := issueOne (slotLoop c stop) s
/-- LOOPX. -/
def execLoopx (count : BitVec 31) (stop : BitVec 21) (s : State) := issueOne (slotLoopx count stop) s
/-- HALT. -/
def execHalt (s : State) := issueOne slotHalt s
/-- TRAP. -/
def execTrap (code : BitVec 16) (s : State) := issueOne (slotTrap code) s
/-- RTT. -/
def execRtt (dr : Bool) (s : State) := issueOne (slotRtt dr) s
/-- BREAK. -/
def execBrk (code : BitVec 16) (s : State) := issueOne (slotBrk code) s
/-- WAITEV. -/
def execWaitev (r : R5) (s : State) := issueOne (slotWaitev r) s
/-- YIELD. -/
def execYield (s : State) := issueOne slotYield s
/-- PRIO. -/
def execPrio (c : BitVec 2) (s : State) := issueOne (slotPrio c) s
/-- IFENCE. -/
def execIfence (s : State) := issueOne slotIfence s

end Sys2Proof.Machine
end

