-- ==== Sys2Proof/Machine/Rings.lean ====
section
/-! DEFINITION. Ring records, pipe pointers and reservations (R110 to R113). -/

namespace Sys2Proof.Machine

/-- The pointers of a ring. -/
structure RingPtr where
  p   : Nat
  c   : Nat
  res : Nat
  deriving DecidableEq, Repr

/-- Word w of ring record h (Table 05-6). -/
def Eng.ring (e : Eng) (h w : Nat) : W64 := tget 0 e.rt (4 * h + w)

/-- Whether a record is a pipe's. -/
def Eng.isPipe (e : Eng) (h : Nat) : Bool := bit (e.ring h 1) 62
/-- Pipe-store entry of a pipe's record. -/
def Eng.pipeIdx (e : Eng) (h : Nat) : Nat := fld (e.ring h 1) 61 54
/-- Slot count. -/
def Eng.ringCount (e : Eng) (h : Nat) : Nat := fld (e.ring h 1) 28 16
/-- Slot size in bytes. -/
def Eng.slotBytes (e : Eng) (h : Nat) : Nat := fld (e.ring h 1) 15 0 * 32

/-- A pipe-store entry. -/
def Clu.pipe (c : Clu) (i : Nat) : PipeEnt := tget ⟨0, 0, 0, []⟩ c.pipes i

/-- The pointers of a ring of a context's engine registers: in the record, or for a pipe in the cluster's store (R113). -/
def State.engPtr (s : State) (core : Nat) (e : Eng) (h : Nat) : RingPtr :=
  if e.isPipe h then
    let q := (s.clu (clusterOf core)).pipe (e.pipeIdx h)
    ⟨q.p.toNat, q.c.toNat, q.res.toNat⟩
  else ⟨fld (e.ring h 2) 31 0, fld (e.ring h 2) 63 32, fld (e.ring h 3) 31 0⟩

/-- The pointers of a ring of a context. -/
def State.ringPtr (s : State) (w : At) (h : Nat) : RingPtr := s.engPtr w.core (s.ctx w).eng h

/-- Writes the pointers of a ring. -/
def State.setRing (s : State) (w : At) (h : Nat) (q : RingPtr) : State :=
  let e := (s.ctx w).eng
  if e.isPipe h then
    s.updClu (clusterOf w.core) fun c =>
      { c with pipes := tset c.pipes (e.pipeIdx h) { c.pipe (e.pipeIdx h) with
          p := BitVec.ofNat 32 q.p, c := BitVec.ofNat 32 q.c, res := BitVec.ofNat 32 q.res } }
  else s.updEng w fun e =>
    { e with rt := tset (tset e.rt (4 * h + 2) (mkW [(q.c % 2 ^ 32, 32), (q.p % 2 ^ 32, 0)])) (4 * h + 3)
                    (BitVec.ofNat 64 (q.res % 2 ^ 32)) }

/-- A difference of free-running pointers. -/
def ptrDiff (a b : Nat) : Nat := (a + 2 ^ 32 - b % 2 ^ 32) % 2 ^ 32

/-- The filled count (R110). -/
def RingPtr.filled (q : RingPtr) : Nat := ptrDiff q.p q.c
/-- Slots reserved or filled. -/
def RingPtr.taken (q : RingPtr) : Nat := ptrDiff q.res q.c

/-- Whether a record whose ring has `taken` slots taken is usable (R110). BASE is used as it stands: that it is 32-byte aligned is no
condition of R110's list, and one that is not is neither refused nor rounded, the model's choice (log 63). -/
def Eng.ringOk (e : Eng) (h taken : Nat) : Bool :=
  let base := e.ring h 0
  let n := e.ringCount h
  let sz := fld (e.ring h 1) 15 0
  bit (e.ring h 1) 63 && (bufSpace base == 1 || bufSpace base == 3) && 1 ≤ n && n ≤ 4096 && 1 ≤ sz && sz ≤ 2048 &&
  bufInRange base (n * sz * 32) && taken ≤ n

/-- Whether a record of a context is usable. -/
def State.ringUsable (s : State) (w : At) (h : Nat) : Bool := (s.ctx w).eng.ringOk h (s.ringPtr w h).taken

/-- The buffer address of slot j (R110). -/
def Eng.slotAddr (e : Eng) (h j : Nat) : W64 :=
  e.ring h 0 + BitVec.ofNat 64 (j % max 1 (e.ringCount h) * e.slotBytes h)

/-- Reserves a slot (R112): its number. -/
def State.reserveSlot (s : State) (w : At) (h : Nat) : Nat × State :=
  let q := s.ringPtr w h
  let e := (s.ctx w).eng
  let s := s.setRing w h { q with res := (q.res + 1) % 2 ^ 32 }
  let s := if e.isPipe h then s.updClu (clusterOf w.core) fun c =>
      { c with pipes := tset c.pipes (e.pipeIdx h) { c.pipe (e.pipeIdx h) with
          held := (c.pipe (e.pipeIdx h)).held ++ [q.res] } } else s
  (q.res, s)

/-- Passes the completed slots from p towards res. -/
def passSlots (open' : List Nat) (res : Nat) : Nat → Nat → Nat
  | 0, p => p
  | n + 1, p => if p = res || open'.contains p then p else passSlots open' res n ((p + 1) % 2 ^ 32)

/-- A ring entry has completed: P advances in reservation order (R112). The entry is no longer in the copy queue. -/
def State.slotDone (s : State) (w : At) (h slot : Nat) : State :=
  let e := (s.ctx w).eng
  let s := if e.isPipe h then s.updClu (clusterOf w.core) fun c =>
      { c with pipes := tset c.pipes (e.pipeIdx h) { c.pipe (e.pipeIdx h) with
          held := (c.pipe (e.pipeIdx h)).held.filter (· != slot) } } else s
  let open' := if e.isPipe h then ((s.clu (clusterOf w.core)).pipe (e.pipeIdx h)).held
    else (s.ctx w).copyq.filterMap fun x => match x.ring with
      | some (g, j) => if g = h then some j else none
      | none => none
  let q := s.ringPtr w h
  s.setRing w h { q with p := passSlots open' q.res 4096 q.p }

end Sys2Proof.Machine
end

