-- ==== Sys2Proof/Machine/Sequencer.lean ====
section
/-! DEFINITION. The step sequencer: block entries, signatures, the skip rule and the skip map, opening and closing a step
(R200 to R215). -/

namespace Sys2Proof.Machine

/-! ## Block entries (Table 09-1) -/

/-- The entry of block b. -/
def State.block (s : State) (die b : Nat) : List W64 := tget [] (s.die die).blocks b
/-- Changes it. -/
def State.updStep (s : State) (die b : Nat) (f : Step → Step) : State :=
  s.updDie die fun d => { d with steps := tset d.steps b (f (s.stepOf die b)) }
/-- Changes a block's W0. -/
def State.updBlock0 (s : State) (die b : Nat) (f : W64 → W64) : State :=
  s.updDie die fun d => { d with blocks := tset d.blocks b ((s.block die b).set 0 (f (wd (s.block die b) 0))) }

/-- V. -/
def bkV (e : List W64) : Bool := bit (wd e 0) 63
/-- DEP is ALL. -/
def bkAll (e : List W64) : Bool := bit (wd e 0) 62
/-- FWDEN. -/
def bkFwden (e : List W64) : Bool := bit (wd e 0) 61
/-- OPEN. -/
def bkOpen (e : List W64) : Bool := bit (wd e 0) 60
/-- REFRESH. -/
def bkRefresh (e : List W64) : Nat := fld (wd e 0) 59 52
/-- STEPNO. -/
def bkStepno (e : List W64) : Nat := fld (wd e 0) 47 32
/-- TR. -/
def bkTr (e : List W64) : Nat := fld (wd e 0) 31 20
/-- TC. -/
def bkTc (e : List W64) : Nat := fld (wd e 0) 19 8
/-- NRT. -/
def bkNrt (e : List W64) : Nat := fld (wd e 1) 63 48
/-- NCT. -/
def bkNct (e : List W64) : Nat := fld (wd e 1) 47 32
/-- ASID. -/
def bkAsid (e : List W64) : Nat := fld (wd e 3) 9 0
/-- OBAND. -/
def bkOband (e : List W64) : Nat := fld (wd e 7) 63 32

/-- Tiles of a block. -/
def bkTiles (e : List W64) : Nat := bkNrt e * bkNct e
/-- Rows of the skip map: NRT, or 1 under ALL (R206). -/
def bkRows (e : List W64) : Nat := if bkAll e then 1 else bkNrt e
/-- The row of a tile (R205). -/
def bkRowOf (e : List W64) (j : Nat) : Nat := if bkAll e then 0 else j / max 1 (bkNct e)
/-- The tiles that a row covers (R205). -/
def bkRowTiles (e : List W64) (r : Nat) : List Nat :=
  if bkAll e then List.range (bkTiles e) else (List.range (bkNct e)).map fun c => r * bkNct e + c
/-- The address of PREV(j) (R203). -/
def bkPrev (e : List W64) (j : Nat) : W64 := wd e 4 + BitVec.ofNat 64 (32 * j)
/-- The address of CUR(j) (R203). -/
def bkCur (e : List W64) (j : Nat) : W64 := wd e 4 + BitVec.ofNat 64 (32 * (bkTiles e + j))
/-- The address of a row's map entry (R206). -/
def bkMap (e : List W64) (r : Nat) : W64 := wd e 6 + BitVec.ofNat 64 (8 + 2 * r)

/-- Whether the words of a block entry are refused, whatever stands there (R200). -/
def blockRefused (e : List W64) : Bool :=
  bkTr e == 0 || bkTc e == 0 || bkNrt e == 0 || bkNct e == 0 || 65536 < bkTiles e ||
  fld (wd e 0) 51 48 != 0 || fld (wd e 0) 7 0 != 0 || fld (wd e 3) 30 10 != 0 || fld (wd e 7) 31 0 != 0 ||
  (wd e 4).toNat % 32 != 0 || (wd e 6).toNat % 8 != 0

/-- The work distributor writes a block entry: refused while its step is open, and it keeps its own OPEN and STEPNO
(R200). -/
def State.writeBlock (s : State) (die b : Nat) (words : List W64) : State :=
  let old := s.block die b
  if 256 ≤ b || bkOpen old || blockRefused words then s
  else
    let w0 := setFld (setFld (wd words 0) 60 60 0) 47 32 (bkStepno old)
    let e := w0 :: (List.range 8).map fun i => wd words (i + 1)
    s.updDie die fun d => { d with blocks := tset d.blocks b e }

/-! ## Signatures (R201 to R203) -/

/-- One element of a tile, at row a and column b: the five sums s0 to s3 and L1 (R201). -/
def sigStep (sums : List W32) (a b : Nat) (v : Num) : List W32 :=
  let sg := fun (odd : Bool) => if odd then v.neg else v
  [v, sg (b % 2 == 1), sg (a % 2 == 1), sg ((a + b) % 2 == 1), v.abs].zipIdx.map fun p =>
    BitVec.ofNat 32 (roundNE 0 (Num.add false (decodeFloat 0 (sums.getD p.2 0).toNat) p.1))

/-- A record: the five sums, VALID and zeros (R203). -/
def sigRecord (sums : List W32) : List Byte :=
  ((List.range 5).map fun i => toBytes 4 (sums.getD i 0).toNat).flatten ++ [1] ++ List.replicate 11 0

/-- A sum of a record. -/
def sigVal (r : List Byte) (i : Nat) : Num := decodeFloat 0 (ofBytes ((r.drop (4 * i)).take 4))
/-- VALID of a record. -/
def sigValid (r : List Byte) : Bool := (r.getD 20 0).getLsbD 0

/-- Whether a number is NaN. -/
def Num.isNaN : Num → Bool
  | .nan => true
  | _ => false

/-- Whether a tile is unchanged (R204). -/
def unchanged (theta : W32) (cur prev : List Byte) : Bool :=
  let th := decodeFloat 0 theta.toNat
  let diffs := (List.range 4).map fun i => (Num.add false (sigVal cur i) (sigVal prev i).neg).abs
  let bound := Num.mul th (sigVal prev 4)
  sigValid cur && sigValid prev && !th.isNaN &&
  (List.range 5).all (fun i => !(sigVal cur i).isNaN && !(sigVal prev i).isNaN) &&
  diffs.all (fun d => !d.special) && !bound.isNaN && Num.cmp (maxAbs diffs) bound != .gt

/-- Where the first element of a copy lies in the input region (R202): its row and column; none outside the region, or
where the source and the region differ in kind, space or stride. -/
def sigPlace (e : List W64) (src : W64) (skind : Bool) (sstr1 : Int) (sfmt : Nat) : Option (Nat × Nat) :=
  let instr := sfld (wd e 3) 63 32
  let inb := wd e 2
  let o : Int := if skind then (bufOff src : Int) - (bufOff inb : Int) else sgn (src - inb)
  if skind != bit (wd e 3) 31 || sstr1 != instr || instr = 0 || (skind && fld src 63 25 != fld inb 63 25) then none
  else
    let row := Int.fdiv o instr
    let bits := Int.fmod o instr * 8
    if row < 0 || bits < 0 || bits % (fmtWidth sfmt : Int) != 0 then none
    else some (row.toNat, (bits / (fmtWidth sfmt : Int)).toNat)

/-- Whether a copy of D1 rows and D0 columns from a place lies in the region, in whole tiles (R114). -/
def sigFits (e : List W64) (place : Nat × Nat) (d0 d1 : Nat) : Bool :=
  let tr := max 1 (bkTr e)
  let tc := max 1 (bkTc e)
  place.1 % tr == 0 && place.2 % tc == 0 && d0 % tc == 0 && d1 % tr == 0 &&
  place.1 + d1 ≤ bkNrt e * bkTr e && place.2 + d0 ≤ bkNct e * bkTc e

/-- The tile and the place in it of an element of a copy. -/
def sigTile (e : List W64) (place : Nat × Nat) (i0 i1 : Nat) : Nat × Nat × Nat :=
  let r := place.1 + i1
  let c := place.2 + i0
  (r / max 1 (bkTr e) * bkNct e + c / max 1 (bkTc e), r % max 1 (bkTr e), c % max 1 (bkTc e))

/-- The tiles that a copy covers, in row order. -/
def sigTiles (e : List W64) (place : Nat × Nat) (d0 d1 : Nat) : List Nat :=
  let nr := d1 / max 1 (bkTr e)
  let nc := d0 / max 1 (bkTc e)
  ((List.range nr).map fun r => (List.range nc).map fun c =>
    (place.1 / max 1 (bkTr e) + r) * bkNct e + place.2 / max 1 (bkTc e) + c).flatten

/-! ## Accesses that a unit makes step by step -/

/-- FKIND of a failure (Table 05-5): the kind of Table 03-8, or 15 for a key. -/
def Fail.fkind : Fail → Nat
  | .page k => k
  | .key => 15

/-- Performs parts i, i + 1, … of a unit's work until one fails: the state, the next part, and the failure. -/
def seqRun (f : State → Nat → Except (Fail × W64) State) : Nat → Nat → State → State × Nat × Option (Fail × W64)
  | 0, i, s => (s, i, none)
  | n + 1, i, s => match f s i with
    | .ok s' => seqRun f n (i + 1) s'
    | .error e => (s, i, some e)

/-- unitRead with its address on failure; key rights are not checked (R56). -/
def State.seqRead (s : State) (die asid : Nat) (va : W64) (n : Nat) : Except (Fail × W64) (List Byte × State) :=
  match s.unitRead .stepSeq die asid (BitVec.allOnes 64) va n with
  | .ok r => .ok r
  | .error f => .error (f, va)

/-- unitWrite with its address on failure. -/
def State.seqWrite (s : State) (die asid : Nat) (va : W64) (bs : List Byte) : Except (Fail × W64) State :=
  match s.unitWrite .stepSeq die asid va bs with
  | .ok s' => .ok s'
  | .error f => .error (f, va)

/-! ## STEPB (R207 to R209) -/

/-- The map entry of a row (Table 09-2). -/
def mapEntry (run : Nat) (nosig forced elig skip : Bool) : List Byte :=
  [BitVec.ofNat 8 (nosig.toNat * 8 + forced.toNat * 4 + elig.toNat * 2 + skip.toNat), BitVec.ofNat 8 run]

/-- RUN after a decision (R208). -/
def nextRun (run : Nat) (skip : Bool) : Nat := if skip then min (run + 1) 255 else 0

/-- The signatures of the tiles of a row: whether each is unchanged, and whether each is valid (R208). -/
def State.rowSigs (s : State) (die : Nat) (e : List W64) (r : Nat) : Except (Fail × W64) (Bool × Bool × State) :=
  (bkRowTiles e r).foldl (fun acc j => match acc with
    | .error f => .error f
    | .ok (u, v, s) => match s.seqRead die (bkAsid e) (bkCur e j) 32 with
      | .error f => .error f
      | .ok (c, s) => match s.seqRead die (bkAsid e) (bkPrev e j) 32 with
        | .error f => .error f
        | .ok (p, s) => .ok (u && unchanged (BitVec.ofNat 32 (fld (wd e 1) 31 0)) c p, v && sigValid c && sigValid p, s))
    (.ok (true, true, s))

/-- Whether the STEPBs of a block follow the trace: each is then a STEPB.RP with the recorded SKIP bits (R215). -/
def State.stepReplays (s : State) (die b : Nat) : Bool := s.replays die (bkAsid (s.block die b))

/-- Bit SKIP of a row in the STEP record that comes next (R370). -/
def State.recordedSkip (s : State) (die b r : Nat) : Bool :=
  let ws := s.recordedAt die (bkAsid (s.block die b)) (1 + r / 16)
  bit (wd ws (r % 16 / 4)) (16 * (r % 4))

/-- One row of STEPB (R208), or of STEPB.RP. -/
def State.stepRow (s : State) (die b : Nat) (rp : Bool) (r : Nat) : Except (Fail × W64) State :=
  let e := s.block die b
  let follow := s.stepReplays die b
  let rp := rp || follow
  match (if rp then .ok (true, true, s) else s.rowSigs die e r) with
  | .error f => .error f
  | .ok (elig, valid, s) =>
    match s.seqRead die (bkAsid e) (bkMap e r) 2 with
    | .error f => .error f
    | .ok (m, s) =>
      let run := (m.getD 1 0).toNat
      let skip := if follow then s.recordedSkip die b r else if rp then (m.getD 0 0).getLsbD 0
        else elig && run < bkRefresh e
      let ent := if rp then mapEntry (nextRun run skip) false false false skip
        else mapEntry (nextRun run skip) (!valid) (elig && !skip) elig skip
      match s.seqWrite die (bkAsid e) (bkMap e r) ent with
      | .error f => .error f
      | .ok s' => .ok (s'.updStep die b fun x =>
          { x with skips := tset x.skips r skip, count := x.count + skip.toNat, ents := tset x.ents r (ofBytes ent) })

/-- The header that STEPB writes (Table 09-2). -/
def stepHeader (e : List W64) (nskip : Nat) : List Byte :=
  toBytes 8 (mkW [(bkStepno e, 48), (bkRows e % 65536, 32), (nskip % 65536, 16)]).toNat

/-- Row bkRows is the header. -/
def State.stepPart (s : State) (die b : Nat) (rp : Bool) (r : Nat) : Except (Fail × W64) State :=
  let e := s.block die b
  if r < bkRows e then s.stepRow die b rp r
  else s.seqWrite die (bkAsid e) (wd e 6) (stepHeader e (s.stepOf die b).count)

/-- Whether a task's event queue, or its image while it is away, has room (R109, R148). -/
def State.roomTo (s : State) (trid : Nat) : Bool :=
  match tget? s.tasks trid with
  | none => true
  | some t =>
    if t.saved then t.owed.isEmpty && t.evqAway < 64
    else (s.ctx ⟨t.core, t.ctx⟩).evRoom

/-- The continuation records of a STEP decision of n rows (R370): the map entries as the STEPB wrote them, sixteen to a record. -/
def Step.cont (x : Step) (n : Nat) : List (List W64) :=
  (List.range ((n + 15) / 16)).map fun q => (List.range 4).map fun w =>
    mkW ((List.range 4).map fun i => (tget 0 x.ents (16 * q + 4 * w + i), 16 * i))

/-- Notes, for every context whose nest is bound to a block, on a core or saved, that a STEPB record of it has posted (R360,
Table 16-11). -/
def State.markReslice (s : State) (die b : Nat) : State :=
  s.tasks.foldl (fun s p =>
    let t := p.2
    if !(t.nest && t.ben && t.block == b && t.die == die) then s
    else if t.saved then
      let a := t.save.toNat + 0x428
      if bit (s.homeW a) 1 then s.homeWrite t.asid a (toBytes 8 ((s.homeW a ||| 4).toNat)) else s
    else
      let s := s.updClu (clusterOf t.core) fun c => { c with dyn := c.dyn.map fun d =>
        if d.1 = t.dynKey then (d.1, { d.2 with pos := 0 }) else d }
      s.updCtx ⟨t.core, t.ctx⟩ fun c => { c with slice := { c.slice with reslice := c.slice.have_ } }) s

/-- Ends a request: the record, and the next request starts at its first part. -/
def State.stepDone (s : State) (die b : Nat) (q : StepAsk) (status fkind count : Nat) (addr : W64) : State :=
  let s := if q.kind == .stepe then s else s.markReslice die b
  (s.updStep die b fun x => { x with reqs := x.reqs.drop 1, pos := 0, count := 0, ents := [], paused := none }).postTo q.trid
    ⟨recW0 q.tag 4 status 0 fkind count, addr⟩

/-- Pauses a block's request with a page request. -/
def State.stepPause (s : State) (die b : Nat) (pos : Nat) (va : W64) : State :=
  let asid := bkAsid (s.block die b)
  let new := (s.stepOf die b).paused.isNone
  let s := s.updStep die b fun x =>
    { x with pos := pos, paused := some { asid := asid, va := va, declined := false } }
  if new then s.pageRequest die asid va 0 else s

/-- Whether a page that a block waits for holds the whole sequencer of its die (R209). -/
def State.seqPaused (s : State) (die b : Nat) : Bool :=
  (s.die die).steps.any fun x => x.1 != b && !((x.2.paused.map (·.declined)).getD true)

/-- Whether the first request of a block may go on but for the trace: the sequencer is not paused, and its task's queue has room (R109,
R209). -/
def State.stepFree (s : State) (die b : Nat) (q : StepAsk) : Bool :=
  (((s.stepOf die b).paused.map (·.declined)).getD true) && !s.seqPaused die b && s.roomTo q.trid

/-- Whether the trace has room for the decision of a STEPB of a block (R371). -/
def State.stepRoom (s : State) (die b : Nat) : Bool := s.mayDecide die (1 + (bkRows (s.block die b) + 15) / 16)

/-- Whether the first request of a block may go on: a STEPB as the next decision under replay (R371). -/
def State.stepReady (s : State) (die b : Nat) (q : StepAsk) : Bool :=
  let asid := bkAsid (s.block die b)
  s.stepFree die b q &&
  (q.kind == .stepe || (s.stepRoom die b && s.follows die asid 7 q.core q.ctx &&
    (!s.replays die asid || fld (wd (s.recorded die asid) 2) 63 56 == b)))

/-- Whether the recorded decision of a STEPB is of another step, or of another number of rows (R215). -/
def State.stepDiverges (s : State) (die b : Nat) : Bool :=
  let e := s.block die b
  let d := wd (s.recorded die (bkAsid e)) 2
  s.stepReplays die b && (fld d 55 40 != bkStepno e || fld d 39 24 != bkRows e % 65536)

/-- The bias that a STEPB or STEPE waits for: of its signature tables, its map and the bands that it forwards (R387). -/
def State.stepBias (s : State) (die b : Nat) (close : Bool) : Option (State → State) :=
  let e := s.block die b
  let n := if bkAll e then bkNrt e * bkOband e else bkOband e
  let sigs := (bkPrev e 0, 64 * bkTiles e)
  let map := (wd e 6, 8 + 2 * bkRows e)
  let bands : List ((W64 × Nat) × W64 × Nat) := if bkFwden e && (s.stepOf die b).latched then
      (List.range (bkRows e)).filter (fun r => tget false (s.stepOf die b).skips r) |>.map (fun r =>
        let o := BitVec.ofNat 64 (r * bkOband e)
        ((wd e 5 + o, n), (wd e 8 + o, n)))
    else []
  (s.unitBias .stepSeq die (bkAsid e) false (sigs :: if close then bands.map (·.1) else [map])).or
    (if close then s.unitBias .stepSeq die (bkAsid e) true (bands.map (·.2)) else none)

/-- STEPB_EVALUATION (R208, R209, R215). -/
def State.stepbRun (s : State) (die b : Nat) : State :=
  match (s.stepOf die b).reqs with
  | [] => s
  | q :: _ =>
    if q.kind == .stepe || !s.stepReady die b q then
      (if q.kind != .stepe && s.stepFree die b q && !s.stepRoom die b then s.logFull die else s)
    else if s.stepDiverges die b then s.replayDiv die
    else match s.stepBias die b false with
    | some f => f s
    | none =>
      let x := s.stepOf die b
      let e := s.block die b
      let r := seqRun (fun s i => s.stepPart die b (q.kind == .stepbRp) i) (bkRows e + 1 - x.pos) x.pos s
      let s := r.1
      match r.2.2 with
      | none =>
        let n := (s.stepOf die b).count
        let s := s.updStep die b fun x => { x with latched := true }
        let data := mkW [(b, 56), (bkStepno e, 40), (bkRows e % 65536, 24), (n % 65536, 8)]
        let s := s.decide die 7 (bkAsid e) q.trid q.core q.ctx data ((s.stepOf die b).cont (bkRows e))
        s.stepDone die b q 0 0 n 0
      | some (f, va) =>
        if f.pauses x.paused then s.stepPause die b r.2.1 va
        else (s.updStep die b fun x => { x with skips := [], latched := false }).stepDone die b q 1 f.fkind 0 va

/-! ## STEPE (R210, R212) -/

/-- One tile of the close: PREV := CUR if its row was computed; CUR.VALID := 0 (R210). -/
def State.closeTile (s : State) (die b j : Nat) : Except (Fail × W64) State :=
  let e := s.block die b
  let x := s.stepOf die b
  let skip := x.latched && tget false x.skips (bkRowOf e j)
  match s.seqRead die (bkAsid e) (bkCur e j) 32 with
  | .error f => .error f
  | .ok (c, s) => match (if skip then .ok s else s.seqWrite die (bkAsid e) (bkPrev e j) c) with
    | .error f => .error f
    | .ok s' => s'.seqWrite die (bkAsid e) (bkCur e j + 20) [(c.getD 20 0) &&& 0xFE]

/-- One band of the forward copy (R212), byte by byte at the home slices under the pages' CPOL. -/
def State.forwardBand (s : State) (die b r : Nat) : Except (Fail × W64) State :=
  let e := s.block die b
  let x := s.stepOf die b
  let n := if bkAll e then bkNrt e * bkOband e else bkOband e
  if !(bkFwden e && x.latched && tget false x.skips r) then .ok s
  else
    let one := fun (s : State) (i : Nat) =>
      let off := BitVec.ofNat 64 (r * bkOband e + i)
      match s.seqRead die (bkAsid e) (wd e 5 + off) 1 with
      | .error f => .error f
      | .ok (bs, s) => s.seqWrite die (bkAsid e) (wd e 8 + off) bs
    let q := seqRun one n 0 s
    match q.2.2 with
    | some f => .error f
    | none => .ok (q.1.updStep die b fun x => { x with count := x.count + 1 })

/-- Parts of the close: its tiles, then its bands. -/
def State.closePart (s : State) (die b i : Nat) : Except (Fail × W64) State :=
  let e := s.block die b
  if i < bkTiles e then s.closeTile die b i else s.forwardBand die b (i - bkTiles e)

/-- STEPE_CLOSE (R210). -/
def State.stepeRun (s : State) (die b : Nat) : State :=
  match (s.stepOf die b).reqs with
  | [] => s
  | q :: _ =>
    if q.kind != .stepe || !s.stepReady die b q then s
    else match s.stepBias die b true with
    | some f => f s
    | none =>
      let x := s.stepOf die b
      let e := s.block die b
      let r := seqRun (fun s i => s.closePart die b i) (bkTiles e + bkRows e - x.pos) x.pos s
      let s := r.1
      match r.2.2 with
      | none =>
        let n := (s.stepOf die b).count
        let s := s.updStep die b fun x => { x with skips := [], latched := false }
        let s := s.updBlock0 die b fun w => setFld (setFld w 47 32 ((bkStepno e + 1) % 65536)) 60 60 0
        s.stepDone die b q 0 0 n 0
      | some (f, va) =>
        if f.pauses x.paused then s.stepPause die b r.2.1 va
        else s.stepDone die b q 1 f.fkind (s.stepOf die b).count va

/-! ## Issue (R207) -/

/-- The trap of STEPB or STEPE of block b by a context (R207). -/
def State.stepTrap (s : State) (w : At) (b : Nat) (close : Bool) : Option Trap :=
  let e := s.block (dieOf w.core) b
  let tr := fun cause => some (trapAt cause 0 0 6 0)
  if !bkV e then tr 14
  else if bkAsid e != (s.ctx w).asid then tr 3
  else if bkOpen e != close then tr 14
  else if close && idOf (s.stepOf (dieOf w.core) b).trid != idOf (s.ctx w).tridN then tr 14
  else none

/-- Hands a request to the sequencer; a STEPB opens the step (R207). -/
def State.stepAsk (s : State) (w : At) (b : Nat) (kind : StepReq) (tag : Nat) : State :=
  let die := dieOf w.core
  let trid := (s.ctx w).tridN
  let q : StepAsk := { kind := kind, core := w.core, ctx := w.ctx, trid := trid, tag := tag }
  let s := s.updStep die b fun x =>
    if kind == .stepe then { x with reqs := x.reqs ++ [q] }
    else { x with trid := trid, skips := [], latched := false, reqs := x.reqs ++ [q] }
  if kind == .stepe then s else s.updBlock0 die b fun w => setFld w 60 60 1

/-- The latched skip bit of a row (R213): 0 outside an open step. -/
def State.skipBit (s : State) (die b r : Nat) : Bool :=
  let x := s.stepOf die b
  x.latched && tget false x.skips (if bkAll (s.block die b) then 0 else r)

end Sys2Proof.Machine
end

