-- ==== Sys2Proof/Machine/Vector.lean ====
section
/-! DEFINITION. The VA lane: arithmetic, compares, masks, conversions, reductions, scans and samples (R264 to R281). -/

namespace Sys2Proof.Machine

open Sys2Proof

/-- How a slot rounds: mode, saturation and key (R267). -/
structure Rounding where
  rm  : RM
  sat : Bool
  key : W64

/-- The stream-key base of a context's task (R267). -/
def State.streamKey (s : State) (w : At) : W64 := ((s.taskOf w).map (·.stream)).getD 0

/-- The rounding of a short form, or of a wide twin's extension (R267). -/
def State.rounding (s : State) (w : At) : Option Rnd → Rounding
  | none => ⟨.rne, false, 0⟩
  | some r => ⟨RM.ofCode r.rm.toNat, r.sat, s.streamKey w + r.skey.setWidth 64⟩

/-- A refused extension: RM 5 to 7, or SAT with RNS3 (R269). -/
def rndIll (fmt : Nat) : Option Rnd → Bool
  | none => false
  | some r => 5 ≤ r.rm.toNat || (r.sat && fmt == 10)

/-- FP32, BF16 and FP16. -/
def fmtF (f : Nat) : Bool := f ≤ 2
/-- INT32, INT16, INT8 and UINT8. -/
def fmtI (f : Nat) : Bool := 6 ≤ f && f ≤ 9
/-- INT32, INT16 and INT8. -/
def fmtS (f : Nat) : Bool := f == 6 || f == 8 || f == 9
/-- Every format with a byte width or more that has a code: 0 to 13 but 5. -/
def fmtBits (f : Nat) : Bool := f ≤ 13 && f != 5

/-- An integer element, signed but for UINT8. -/
def intElem (f bits : Nat) : Int := if f = 7 then (bits : Int) else sextNat bits (fmtWidth f)

/-- The integer result of R270: wrapped, or clamped with SAT. -/
def intOut (f : Nat) (sat : Bool) (x : Int) : Nat := intBits (if sat then clampInt (intRange f) x else x) (fmtWidth f)

/-- A VA slot whose result goes to the active elements of vd. -/
def slotVA (o : VOpd) (w : Option Rnd) (lat : Nat) (ok useB useD masked : Bool)
    (val : Rounding → Regs → Nat → Nat) : SlotSem :=
  let fmt := o.fmt.toNat
  let wid := fmtWidth fmt
  { lane := 2, words := if w.isSome then 2 else 1, ill := !ok || rndIll fmt w
    reads := [(.v, o.va.toNat), (.k, o.k.toNat)] ++ (if useB then [(.v, o.vb.toNat)] else []) ++
      (if useD then [(.v, o.vd.toNat)] else [])
    writes := [(.v, o.vd.toNat)]
    results := fun a s =>
      let r := (s.ctx a).regs
      [⟨.v, o.vd.toNat, if masked then activeMask (r.getK o.k.toNat) else wholeMask,
        vOfElems wid (elemCount wid) (val (s.rounding a w) r), lat⟩] }

/-- Element i of a v register under the slot's format. -/
def VOpd.at' (o : VOpd) (r : Regs) (n : R5) (i : Nat) : Nat := elem (r.getV n.toNat) (fmtWidth o.fmt.toNat) i

/-- Floating-point, integer and residue arithmetic of R270 on elements a, b and d. -/
def arith (fmt : Nat) (q : Rounding) (i : Nat) (fl : Num → Num → Num → Num) (int : Int → Int → Int → Int)
    (rns : Nat → Nat → Nat → Nat) (a b d : Nat) : Nat :=
  if fmt = 10 then rns a b d
  else if fmtF fmt then
    roundTo fmt q.rm q.sat q.key i (fl (elemValue fmt a) (elemValue fmt b) (elemValue fmt d)).toXR
  else intOut fmt q.sat (int (intElem fmt a) (intElem fmt b) (intElem fmt d))

/-- The sign of an exactly zero sum of opposite signs (R30). -/
def Rounding.zneg (q : Rounding) : Bool := q.rm == .rdn

/-- An arithmetic slot of R270. -/
def slotArith (o : VOpd) (w : Option Rnd) (lat : Nat) (useD : Bool) (fl : Rounding → Num → Num → Num → Num)
    (int : Int → Int → Int → Int) (rns : Nat → Nat → Nat → Nat) : SlotSem :=
  let fmt := o.fmt.toNat
  slotVA o w lat (fmtF fmt || fmtI fmt || fmt == 10) true useD true fun q r i =>
    arith fmt q i (fl q) int rns (VOpd.at' o r o.va i) (VOpd.at' o r o.vb i) (if useD then VOpd.at' o r o.vd i else 0)

/-- VADD (R270). -/
def slotVadd (o : VOpd) (w : Option Rnd) : SlotSem :=
  slotArith o w 3 false (fun q a b _ => Num.add q.zneg a b) (fun a b _ => a + b) (fun a b _ => rnsAdd a b)
/-- VSUB (R270). -/
def slotVsub (o : VOpd) (w : Option Rnd) : SlotSem :=
  slotArith o w 3 false (fun q a b _ => Num.add q.zneg a b.neg) (fun a b _ => a - b) (fun a b _ => rnsSub a b)
/-- VMUL (R270). -/
def slotVmul (o : VOpd) (w : Option Rnd) : SlotSem :=
  slotArith o w 3 false (fun _ a b _ => Num.mul a b) (fun a b _ => a * b) (fun a b _ => rnsMul a b)
/-- VFMA (R270): fused. -/
def slotVfma (o : VOpd) (w : Option Rnd) : SlotSem :=
  slotArith o w 4 true (fun q a b d => Num.add q.zneg (Num.mul a b) d) (fun a b d => a * b + d)
    (fun a b d => rnsAdd (rnsMul a b) d)
/-- VFMS (R270): fused. -/
def slotVfms (o : VOpd) (w : Option Rnd) : SlotSem :=
  slotArith o w 4 true (fun q a b d => Num.add q.zneg (Num.mul a b) d.neg) (fun a b d => a * b - d)
    (fun a b d => rnsSub (rnsMul a b) d)

/-- A function of one element, correctly rounded (R272). -/
def slotFun (o : VOpd) (w : Option Rnd) (f : Num → XR) : SlotSem :=
  let fmt := o.fmt.toNat
  slotVA o w 6 (fmtF fmt && o.vb == 0) false false true fun q r i =>
    roundTo fmt q.rm q.sat q.key i (f (elemValue fmt (VOpd.at' o r o.va i)))

/-- VEXP2 (R272). -/
def slotVexp2 (o : VOpd) (w : Option Rnd) : SlotSem := slotFun o w exp2XR
/-- VLOG2 (R272). -/
def slotVlog2 (o : VOpd) (w : Option Rnd) : SlotSem := slotFun o w log2XR
/-- VRCP (R272). -/
def slotVrcp (o : VOpd) (w : Option Rnd) : SlotSem := slotFun o w rcpXR
/-- VRSQ (R272). -/
def slotVrsq (o : VOpd) (w : Option Rnd) : SlotSem := slotFun o w rsqXR

/-- The mask of the bits that VCVT writes: active elements of width wd at spacing of E, and the zeroed rest (R277). -/
def cvtMask (k : W64) (wm wd : Nat) : VReg :=
  let e := 2048 / wm
  let m := vOfElems wd e fun i => if active k wm i then 2 ^ wd - 1 else 0
  if wd * e < 2048 then m ||| (wholeMask <<< (wd * e)) else m

/-- VCVT (R277). -/
def slotVcvt (o : VOpd) (w : Option Rnd) : SlotSem :=
  let sf := o.fmt.toNat
  let df := o.vb.toNat
  let ws := fmtWidth sf
  let wdst := fmtWidth df
  let wm := max ws wdst
  { lane := 2, words := if w.isSome then 2 else 1, ill := 9 < sf || 9 < df || rndIll sf w
    reads := [(.v, o.va.toNat), (.k, o.k.toNat)], writes := [(.v, o.vd.toNat)]
    results := fun a s =>
      let r := (s.ctx a).regs
      let q := s.rounding a w
      let f := fun i =>
        let b := elem (r.getV o.va.toNat) ws i
        if sf = df then b else convert sf df q.rm q.sat q.key i b
      [⟨.v, o.vd.toNat, cvtMask (r.getK o.k.toNat) wm wdst, vOfElems wdst (2048 / wm) f, 3⟩] }

/-! ## Reductions and scans (R278, R279) -/

/-- One level of the pairwise tree. -/
def pairLevel {α : Type} (op : α → α → α) : List α → List α
  | x :: y :: l => op x y :: pairLevel op l
  | l => l

/-- The tree, over at most 2^n elements. -/
def treeReduce {α : Type} (op : α → α → α) : Nat → List α → List α
  | 0, l => l
  | n + 1, l => treeReduce op n (pairLevel op l)

/-- One level of the doubling scan, at distance d. -/
def scanLevel {α : Type} (op : α → α → α) (d : Nat) (l : List α) : List α :=
  l.take d ++ List.zipWith (fun x y => op x y) (l.drop d) l

/-- The doubling scan over n levels. -/
def scanAll {α : Type} (op : α → α → α) : Nat → Nat → List α → List α
  | 0, _, l => l
  | n + 1, d, l => scanAll op n (2 * d) (scanLevel op d l)

/-- A node's sum in FP32, INT32 or RNS3 (Table 12-4). -/
def sumNode (fmt : Nat) (sat : Bool) (x y : Nat) : Nat :=
  if fmt = 10 then rnsAdd x y
  else if fmt = 9 then intOut 9 sat (intElem 9 x + intElem 9 y)
  else addF32 x y

/-- A participating element widened, or the identity of the sum (R278). -/
def sumLeaf (fmt : Nat) (act : Bool) (b : Nat) : Nat :=
  if fmtF fmt then (if act then roundNE 0 (elemValue fmt b) else 0x80000000) else if act then b else 0

/-- The leaves of a reduction. -/
def VOpd.leaves {α : Type} (o : VOpd) (r : Regs) (f : Bool → Nat → α) : List α :=
  let wid := fmtWidth o.fmt.toNat
  (List.range (elemCount wid)).map fun i => f (active (r.getK o.k.toNat) wid i) (VOpd.at' o r o.va i)

/-- A sum in FMT. -/
def sumOut (fmt : Nat) (q : Rounding) (i x : Nat) : Nat :=
  if fmtF fmt then roundTo fmt q.rm q.sat q.key i (decodeFloat 0 x).toXR else x

/-- VREDS (R278). -/
def slotVreds (o : VOpd) (w : Option Rnd) : SlotSem :=
  let fmt := o.fmt.toNat
  { slotVA o w 5 ((fmtF fmt || fmt == 9 || fmt == 10) && o.vb == 0) false false false (fun _ _ _ => 0) with
    results := fun a s =>
      let r := (s.ctx a).regs
      let q := s.rounding a w
      let l := treeReduce (sumNode fmt q.sat) 8 (VOpd.leaves o r (sumLeaf fmt))
      let x := sumOut fmt q 0 (l.headD 0)
      [Res.v o.vd.toNat (vOfElems (fmtWidth fmt) (elemCount (fmtWidth fmt)) fun _ => x) 5] }

/-- VREDM (R278). -/
def slotVredm (o : VOpd) : SlotSem :=
  let fmt := o.fmt.toNat
  { slotVA o none 5 ((fmtF fmt || fmtI fmt) && o.vb == 0) false false false (fun _ _ _ => 0) with
    results := fun a s =>
      let r := (s.ctx a).regs
      let x := if fmtF fmt then
          let l := treeReduce maxNum 8 (VOpd.leaves o r fun act b => if act then elemValue fmt b else .inf true)
          roundNE fmt (l.headD .nan)
        else
          let l := treeReduce max 8 (VOpd.leaves o r fun act b => if act then intElem fmt b else (intRange fmt).1)
          intBits (l.headD 0) (fmtWidth fmt)
      [Res.v o.vd.toNat (vOfElems (fmtWidth fmt) (elemCount (fmtWidth fmt)) fun _ => x) 5] }

/-- VSCAN (R279). -/
def slotVscan (o : VOpd) (w : Option Rnd) : SlotSem :=
  let fmt := o.fmt.toNat
  let wid := fmtWidth fmt
  { slotVA o w 6 ((fmtF fmt || fmt == 9) && o.vb == 0) false false true (fun _ _ _ => 0) with
    results := fun a s =>
      let r := (s.ctx a).regs
      let q := s.rounding a w
      let l := scanAll (sumNode fmt q.sat) (Nat.log2 (elemCount wid)) 1 (VOpd.leaves o r (sumLeaf fmt))
      [⟨.v, o.vd.toNat, activeMask (r.getK o.k.toNat),
        vOfElems wid (elemCount wid) fun i => sumOut fmt q i (l.getD i 0), 6⟩] }

/-! ## Minimum, maximum, sign, compare, select and bits (R271, R273, R274, R276) -/

/-- VMAX (R271). -/
def slotVmax (o : VOpd) : SlotSem :=
  let fmt := o.fmt.toNat
  slotVA o none 3 (fmtF fmt || fmtI fmt) true false true fun q r i =>
    arith fmt q i (fun a b _ => maxNum a b) (fun a b _ => max a b) (fun a _ _ => a) (VOpd.at' o r o.va i)
      (VOpd.at' o r o.vb i) 0
/-- VMIN (R271). -/
def slotVmin (o : VOpd) : SlotSem :=
  let fmt := o.fmt.toNat
  slotVA o none 3 (fmtF fmt || fmtI fmt) true false true fun q r i =>
    arith fmt q i (fun a b _ => minNum a b) (fun a b _ => min a b) (fun a _ _ => a) (VOpd.at' o r o.va i)
      (VOpd.at' o r o.vb i) 0
/-- VABS (R271). -/
def slotVabs (o : VOpd) : SlotSem :=
  let fmt := o.fmt.toNat
  slotVA o none 3 ((fmtF fmt || fmtS fmt) && o.vb == 0) false false true fun q r i =>
    arith fmt q i (fun a _ _ => a.abs) (fun a _ _ => if a < 0 then -a else a) (fun a _ _ => a) (VOpd.at' o r o.va i) 0 0
/-- VNEG (R271). -/
def slotVneg (o : VOpd) : SlotSem :=
  let fmt := o.fmt.toNat
  slotVA o none 3 ((fmtF fmt || fmtS fmt) && o.vb == 0) false false true fun q r i =>
    arith fmt q i (fun a _ _ => a.neg) (fun a _ _ => -a) (fun a _ _ => a) (VOpd.at' o r o.va i) 0 0

/-- The bits that a compare gives: one for each granule (R273). -/
def cmpBits (c fmt : Nat) (k : W64) (a b : VReg) : W64 :=
  let wid := fmtWidth fmt
  let per := 32 / wid
  BitVec.ofNat 64 (packElems 1 (fun g =>
    if k.getLsbD g && (List.range per).all fun j => vcond c fmt (elem a wid (g * per + j)) (elem b wid (g * per + j))
    then 1 else 0) 64)

/-- VCMP (R273): COND in bits 21:20 of the slot, kd in bits 19:17. -/
def slotVcmp (o : VOpd) : SlotSem :=
  let fmt := o.fmt.toNat
  { lane := 2, ill := !(fmtF fmt || fmtI fmt)
    reads := [(.v, o.va.toNat), (.v, o.vb.toNat), (.k, o.k.toNat)], writes := [(.k, o.vd.toNat % 8)]
    results := fun a s =>
      let r := (s.ctx a).regs
      [Res.w .k (o.vd.toNat % 8)
        (cmpBits (o.vd.toNat / 8) fmt (r.getK o.k.toNat) (r.getV o.va.toNat) (r.getV o.vb.toNat)) 3] }

/-- VSEL (R274): every element is written. -/
def slotVsel (o : VOpd) : SlotSem :=
  let fmt := o.fmt.toNat
  slotVA o none 3 (fmtBits fmt) true false false fun _ r i =>
    if active (r.getK o.k.toNat) (fmtWidth fmt) i then VOpd.at' o r o.va i else VOpd.at' o r o.vb i

/-- A bitwise slot (R276). -/
def slotBits (o : VOpd) (useB : Bool) (f : Nat → Nat → Nat) : SlotSem :=
  slotVA o none 3 (o.fmt == 9 && (useB || o.vb == 0)) useB false true fun _ r i =>
    f (VOpd.at' o r o.va i) (VOpd.at' o r o.vb i)

/-- VAND (R276). -/
def slotVand (o : VOpd) : SlotSem := slotBits o true fun a b => a &&& b
/-- VOR (R276). -/
def slotVor (o : VOpd) : SlotSem := slotBits o true fun a b => a ||| b
/-- VXOR (R276). -/
def slotVxor (o : VOpd) : SlotSem := slotBits o true fun a b => a ^^^ b
/-- VNOT (R276). -/
def slotVnot (o : VOpd) : SlotSem := slotBits o false fun a _ => 2 ^ 32 - 1 - a

/-- A shift slot (R276): element, amount below the width, width. -/
def slotVshift (o : VOpd) (f : Nat → Nat → Nat → Nat) : SlotSem :=
  let wid := fmtWidth o.fmt.toNat
  slotVA o none 3 (fmtS o.fmt.toNat) true false true fun _ r i =>
    f (VOpd.at' o r o.va i) (VOpd.at' o r o.vb i % wid) wid

/-- VSHL (R276). -/
def slotVshl (o : VOpd) : SlotSem := slotVshift o fun a n wid => (a <<< n) % 2 ^ wid
/-- VSHR (R276). -/
def slotVshr (o : VOpd) : SlotSem := slotVshift o fun a n _ => a >>> n
/-- VSAR (R276). -/
def slotVsar (o : VOpd) : SlotSem := slotVshift o fun a n wid => intBits (sextNat a wid / (2 : Int) ^ n) wid

/-! ## Broadcast, index and samples (R280, R281) -/

/-- VBCAST (R280): element j of va, j in the vb field. -/
def slotVbcast (o : VOpd) : SlotSem :=
  slotVA o none 3 (fmtBits o.fmt.toNat) false false true fun _ r _ => VOpd.at' o r o.va o.vb.toNat

/-- VIOTA (R280). -/
def slotViota (o : VOpd) : SlotSem :=
  let fmt := o.fmt.toNat
  { slotVA o none 3 ((fmtF fmt || fmt == 8 || fmt == 9) && o.va == 0 && o.vb == 0) false false true
      (fun _ _ i => if fmtF fmt then roundNE fmt (Num.ofInt i) else i) with reads := [(.k, o.k.toNat)] }

/-- A sample slot (R281): K names a key register; every element is written. -/
def slotSample (o : VOpd) (fmt : Nat) (f : W64 → W64 → Nat) : SlotSem :=
  slotVA o none 4 (o.fmt.toNat == fmt) true false false fun _ r i =>
    f (r.getK o.k.toNat) (BitVec.ofNat 64 (VOpd.at' o r o.vb i * 2 ^ 32 + VOpd.at' o r o.va i))

/-- VGAUSS (R281). -/
def slotVgauss (o : VOpd) : SlotSem := slotSample o 0 fun key idx => roundNE 0 (gaussZ key idx)
/-- VRAND (R281). -/
def slotVrand (o : VOpd) : SlotSem := slotSample o 9 fun key idx => (mix64 key idx).toNat >>> 32

/-! ## Masks (R275) -/

/-- A mask slot. -/
def slotMask (kd : BitVec 3) (reads : List (BitVec 3)) (f : Regs → W64) : SlotSem :=
  { lane := 2, reads := reads.map fun k => (.k, k.toNat), writes := [(.k, kd.toNat)]
    results := fun a s => [Res.w .k kd.toNat (f (s.ctx a).regs) 3] }

/-- KAND (R275). -/
def slotKand (kd ka kb : BitVec 3) : SlotSem := slotMask kd [ka, kb] fun r => r.getK ka.toNat &&& r.getK kb.toNat
/-- KOR (R275). -/
def slotKor (kd ka kb : BitVec 3) : SlotSem := slotMask kd [ka, kb] fun r => r.getK ka.toNat ||| r.getK kb.toNat
/-- KXOR (R275). -/
def slotKxor (kd ka kb : BitVec 3) : SlotSem := slotMask kd [ka, kb] fun r => r.getK ka.toNat ^^^ r.getK kb.toNat
/-- KNOT (R275). -/
def slotKnot (kd ka : BitVec 3) : SlotSem := slotMask kd [ka] fun r => ~~~(r.getK ka.toNat)
/-- KPOP (R275). -/
def slotKpop (kd ka : BitVec 3) : SlotSem :=
  slotMask kd [ka] fun r => BitVec.ofNat 64 (popcount (r.getK ka.toNat).toNat 64)

/-! ## The meanings -/

/-- VADD. -/
def execVadd (o : VOpd) (w : Option Rnd) (s : State) := issueOne (slotVadd o w) s
/-- VSUB. -/
def execVsub (o : VOpd) (w : Option Rnd) (s : State) := issueOne (slotVsub o w) s
/-- VMUL. -/
def execVmul (o : VOpd) (w : Option Rnd) (s : State) := issueOne (slotVmul o w) s
/-- VFMA. -/
def execVfma (o : VOpd) (w : Option Rnd) (s : State) := issueOne (slotVfma o w) s
/-- VFMS. -/
def execVfms (o : VOpd) (w : Option Rnd) (s : State) := issueOne (slotVfms o w) s
/-- VEXP2. -/
def execVexp2 (o : VOpd) (w : Option Rnd) (s : State) := issueOne (slotVexp2 o w) s
/-- VLOG2. -/
def execVlog2 (o : VOpd) (w : Option Rnd) (s : State) := issueOne (slotVlog2 o w) s
/-- VRCP. -/
def execVrcp (o : VOpd) (w : Option Rnd) (s : State) := issueOne (slotVrcp o w) s
/-- VRSQ. -/
def execVrsq (o : VOpd) (w : Option Rnd) (s : State) := issueOne (slotVrsq o w) s
/-- VCVT. -/
def execVcvt (o : VOpd) (w : Option Rnd) (s : State) := issueOne (slotVcvt o w) s
/-- VREDS. -/
def execVreds (o : VOpd) (w : Option Rnd) (s : State) := issueOne (slotVreds o w) s
/-- VSCAN. -/
def execVscan (o : VOpd) (w : Option Rnd) (s : State) := issueOne (slotVscan o w) s
/-- VMAX. -/
def execVmax (o : VOpd) (s : State) := issueOne (slotVmax o) s
/-- VMIN. -/
def execVmin (o : VOpd) (s : State) := issueOne (slotVmin o) s
/-- VABS. -/
def execVabs (o : VOpd) (s : State) := issueOne (slotVabs o) s
/-- VNEG. -/
def execVneg (o : VOpd) (s : State) := issueOne (slotVneg o) s
/-- VCMP. -/
def execVcmp (o : VOpd) (s : State) := issueOne (slotVcmp o) s
/-- VSEL. -/
def execVsel (o : VOpd) (s : State) := issueOne (slotVsel o) s
/-- VAND. -/
def execVand (o : VOpd) (s : State) := issueOne (slotVand o) s
/-- VOR. -/
def execVor (o : VOpd) (s : State) := issueOne (slotVor o) s
/-- VXOR. -/
def execVxor (o : VOpd) (s : State) := issueOne (slotVxor o) s
/-- VNOT. -/
def execVnot (o : VOpd) (s : State) := issueOne (slotVnot o) s
/-- VSHL. -/
def execVshl (o : VOpd) (s : State) := issueOne (slotVshl o) s
/-- VSHR. -/
def execVshr (o : VOpd) (s : State) := issueOne (slotVshr o) s
/-- VSAR. -/
def execVsar (o : VOpd) (s : State) := issueOne (slotVsar o) s
/-- VREDM. -/
def execVredm (o : VOpd) (s : State) := issueOne (slotVredm o) s
/-- VBCAST. -/
def execVbcast (o : VOpd) (s : State) := issueOne (slotVbcast o) s
/-- VIOTA. -/
def execViota (o : VOpd) (s : State) := issueOne (slotViota o) s
/-- VGAUSS. -/
def execVgauss (o : VOpd) (s : State) := issueOne (slotVgauss o) s
/-- VRAND. -/
def execVrand (o : VOpd) (s : State) := issueOne (slotVrand o) s
/-- KAND. -/
def execKand (kd ka kb : BitVec 3) (s : State) := issueOne (slotKand kd ka kb) s
/-- KOR. -/
def execKor (kd ka kb : BitVec 3) (s : State) := issueOne (slotKor kd ka kb) s
/-- KXOR. -/
def execKxor (kd ka kb : BitVec 3) (s : State) := issueOne (slotKxor kd ka kb) s
/-- KNOT. -/
def execKnot (kd ka : BitVec 3) (s : State) := issueOne (slotKnot kd ka) s
/-- KPOP. -/
def execKpop (kd ka : BitVec 3) (s : State) := issueOne (slotKpop kd ka) s

end Sys2Proof.Machine
end

