-- ==== Sys2Proof/Machine/Copy.lean ====
section
/-! DEFINITION. The copy engine: copy, fence and digest entries of the four queues of each context (R98 to R107, R112, R114,
R324). -/

namespace Sys2Proof.Machine

/-! ## Fields of a copy descriptor (Table 05-3) -/

/-- D of dimension d. -/
def cpD (ws : List W64) (d : Nat) : Nat := fld (wd ws 2) (16 * d + 15) (16 * d)
/-- Elements of a copy. -/
def cpN (ws : List W64) : Nat := cpD ws 0 * cpD ws 1 * cpD ws 2 * cpD ws 3
/-- Rows of a copy. -/
def cpRows (ws : List W64) : Nat := cpD ws 1 * cpD ws 2 * cpD ws 3
/-- Source strides. -/
def cpSstr (ws : List W64) : Nat → Int
  | 1 => sfld (wd ws 3) 63 32 | 2 => sfld (wd ws 3) 31 0 | _ => sfld (wd ws 4) 63 32
/-- Destination strides. -/
def cpDstr (ws : List W64) : Nat → Int
  | 1 => sfld (wd ws 4) 31 0 | 2 => sfld (wd ws 5) 63 32 | _ => sfld (wd ws 5) 31 0
/-- SFMT. -/
def cpSfmt (ws : List W64) : Nat := fld (wd ws 6) 3 0
/-- DFMT. -/
def cpDfmt (ws : List W64) : Nat := fld (wd ws 6) 7 4
/-- RM. -/
def cpRm (ws : List W64) : Nat := fld (wd ws 6) 10 8
/-- SAT. -/
def cpSat (ws : List W64) : Bool := bit (wd ws 6) 11
/-- MXS. -/
def cpMxs (ws : List W64) : Bool := bit (wd ws 6) 12
/-- MXD. -/
def cpMxd (ws : List W64) : Bool := bit (wd ws 6) 13
/-- SKIND. -/
def cpSkind (ws : List W64) : Bool := bit (wd ws 6) 14
/-- DKIND. -/
def cpDkind (ws : List W64) : Bool := bit (wd ws 6) 15
/-- RING. -/
def cpRing (ws : List W64) : Nat := fld (wd ws 6) 19 16
/-- RINGEN. -/
def cpRingen (ws : List W64) : Bool := bit (wd ws 6) 20
/-- SIG. -/
def cpSig (ws : List W64) : Bool := bit (wd ws 6) 21
/-- SIGBLK. -/
def cpSigblk (ws : List W64) : Nat := fld (wd ws 6) 29 22
/-- EVT. -/
def cpEvt (ws : List W64) : Bool := bit (wd ws 6) 30
/-- TAG. -/
def cpTag (ws : List W64) : Nat := fld (wd ws 6) 47 32
/-- SCSTR. -/
def cpScstr (ws : List W64) : Nat := fld (wd ws 6) 63 48
/-- Whether either side is block-scaled. -/
def cpMx (ws : List W64) : Bool := cpMxs ws || cpMxd ws
/-- Scale row pitch (R102). -/
def cpPitch (ws : List W64) : Nat := if cpScstr ws = 0 then cpD ws 0 / 32 else cpScstr ws
/-- The kind of the scale array: that of the block-scaled side. -/
def cpSckind (ws : List W64) : Bool := if cpMxd ws then cpDkind ws else cpSkind ws

/-- Bytes of an element; an E2M1 element is reached through its byte. -/
def fmtBytes (f : Nat) : Nat := max 1 (fmtWidth f / 8)

/-- Row r of a copy in its visit order: i1, i2, i3. -/
def cpRowIdx (ws : List W64) (r : Nat) : Nat × Nat × Nat :=
  (r % max 1 (cpD ws 1), r / max 1 (cpD ws 1) % max 1 (cpD ws 2), r / max 1 (cpD ws 1 * cpD ws 2))

/-- Byte offset of row r from SRC (R100). -/
def cpSrcRow (ws : List W64) (r : Nat) : Int :=
  let i := cpRowIdx ws r
  (i.1 : Int) * cpSstr ws 1 + (i.2.1 : Int) * cpSstr ws 2 + (i.2.2 : Int) * cpSstr ws 3
/-- Byte offset of row r from DST (R100). -/
def cpDstRow (ws : List W64) (r : Nat) : Int :=
  let i := cpRowIdx ws r
  (i.1 : Int) * cpDstr ws 1 + (i.2.1 : Int) * cpDstr ws 2 + (i.2.2 : Int) * cpDstr ws 3

/-- Byte offset of element i0 of a row. -/
def cpElemOff (f i0 : Nat) : Nat := i0 * fmtWidth f / 8

/-- An address at an offset from a base. -/
def addrAt (base : W64) (off : Int) : W64 := base + BitVec.ofInt 64 off

/-- The byte ranges, offset and length, of the rows of the source. -/
def cpSrcRanges (ws : List W64) : List (Int × Nat) :=
  (List.range (cpRows ws)).map fun r => (cpSrcRow ws r, elemBytes (cpSfmt ws) (cpD ws 0))
/-- The byte ranges of the rows of the destination. -/
def cpDstRanges (ws : List W64) : List (Int × Nat) :=
  (List.range (cpRows ws)).map fun r => (cpDstRow ws r, elemBytes (cpDfmt ws) (cpD ws 0))
/-- The byte ranges of the scales, from SCALE. -/
def cpScaleRanges (ws : List W64) : List (Int × Nat) :=
  if cpMx ws then (List.range (cpRows ws)).map fun r => (((r * cpPitch ws : Nat) : Int), cpD ws 0 / 32) else []

/-! ## Checks (R102, R104) -/

/-- CPYQ's illegal descriptors (R104). -/
def cpIllegal (ws : List W64) : Bool :=
  let sf := cpSfmt ws
  let df := cpDfmt ws
  14 ≤ sf || 14 ≤ df || 5 ≤ cpRm ws || (cpMxs ws && !(3 ≤ sf && sf ≤ 5)) || (cpMxd ws && !(3 ≤ df && df ≤ 5)) ||
  (cpMxs ws && cpMxd ws) || (sf != df && (10 ≤ sf || 10 ≤ df))

/-- Whether every address reached by a side is a multiple of its element size (R104). -/
def cpAligned (ws : List W64) (base : W64) (buf : Bool) (str : Nat → Int) (f : Nat) : Bool :=
  let n := fmtBytes f
  (if buf then bufOff base else base.toNat) % n == 0 &&
  [1, 2, 3].all fun d => cpD ws d ≤ 1 || str d % (n : Int) == 0

/-- SHAPE, but for ring slots and signatures (R104). -/
def cpBadShape (ws : List W64) : Bool :=
  [0, 1, 2, 3].any (fun d => cpD ws d == 0) ||
  ((cpSfmt ws == 5 || cpDfmt ws == 5) && cpD ws 0 % 2 == 1) ||
  !cpAligned ws (wd ws 0) (cpSkind ws) (cpSstr ws) (cpSfmt ws) ||
  !cpAligned ws (wd ws 1) (cpDkind ws) (cpDstr ws) (cpDfmt ws) ||
  (cpMx ws && (cpD ws 0 % 32 != 0 || (cpScstr ws != 0 && cpScstr ws < cpD ws 0 / 32)))

/-- Whether the bytes that a ring copy writes do not fit its slot (R112). -/
def cpSlotBad (ws : List W64) (slot : Nat) : Bool :=
  (cpDstRanges ws).any fun r => r.1 < 0 || (slot : Int) < r.1 + (r.2 : Int)

/-- Signature capture that ends with SHAPE (R114, R202). -/
def State.cpSigBad (s : State) (die asid : Nat) (ws : List W64) : Bool :=
  let e := s.block die (cpSigblk ws)
  cpSig ws &&
  (cpD ws 2 != 1 || cpD ws 3 != 1 || !bkV e || bkAsid e != asid || 10 ≤ cpDfmt ws ||
  match sigPlace e (wd ws 0) (cpSkind ws) (cpSstr ws 1) (cpSfmt ws) with
  | none => true
  | some p => !sigFits e p (cpD ws 0) (cpD ws 1))

/-- The first address of a list of ranges of a buffer that is out of range (R94, R104). -/
def rangeBad (base : W64) (rs : List (Int × Nat)) : Option W64 :=
  let ok := bufSpace base < 4 && fld base 53 25 == 0 && !(bufSpace base == 3 && fld base 59 54 != 0)
  (rs.find? fun r => !(ok && 0 ≤ (bufOff base : Int) + r.1 &&
    (bufOff base : Int) + r.1 + (r.2 : Int) ≤ (spaceSize (bufSpace base) : Int))).map fun r => addrAt base r.1

/-- BUFRANGE: ADDR is the first address of the first row or scale range that is out of range, of SRC, then DST, then SCALE; which address
the record names is the model's choice (log 64). -/
def cpRangeBad (ws : List W64) : Option W64 :=
  match (if cpSkind ws then rangeBad (wd ws 0) (cpSrcRanges ws) else none) with
  | some a => some a
  | none => match (if cpDkind ws then rangeBad (wd ws 1) (cpDstRanges ws) else none) with
    | some a => some a
    | none => if cpSckind ws then rangeBad (wd ws 7) (cpScaleRanges ws) else none

/-- The buffer ranges of a descriptor with their bases, and whether they are written (R346). -/
def cpBufSides (ws : List W64) : List (W64 × Bool × List (Int × Nat)) :=
  (if cpSkind ws then [(wd ws 0, false, cpSrcRanges ws)] else []) ++
  (if cpDkind ws then [(wd ws 1, true, cpDstRanges ws)] else []) ++
  (if cpMx ws && cpSckind ws then [(wd ws 7, cpMxd ws, cpScaleRanges ws)] else [])

/-- The OVERLAP trap of buffer ranges used by queue q (R346). -/
def State.sidesTrap (s : State) (w : At) (q : Nat) (sides : List (W64 × Bool × List (Int × Nat))) : Option Trap :=
  sides.findSome? fun x => x.2.2.findSome? fun r =>
    s.phaseTrap w 6 0 (4 + q) x.2.1 (bufSpace x.1) (fld x.1 59 54) ((bufOff x.1 : Int) + r.1).toNat r.2

/-! ## Accesses of the engine (R72, R103) -/

/-- Translation of an engine's access for a context (R59, R60): global and device-register addresses are refused. -/
def State.engineXlate (s : State) (w : At) (asid : Nat) (kperm va : W64) (n : Nat) (need : Need) : Except (Fail × W64) Xl :=
  if isGlobal va then .error (.page (if s.globalFault (dieOf w.core) asid va then 3 else 5), va)
  else match s.xlate w asid ((s.ctx w).extentFor va.toNat n) va need kperm with
  | .error f => .error (f, va)
  | .ok x =>
    if isDevFrame x.pa then .error (.page 5, va)
    else if isHostHomed x.pa && s.link.fenced then .error (.page Config.fencedKind.toNat, va)
    else .ok x

/-- Reads at the place of an engine's access. -/
def State.engineGet (s : State) (w : At) (x : Xl) (asid n : Nat) : List Byte × State :=
  if s.atCluster x false then s.cluRead (clusterOf w.core) none asid x.pa n
  else s.homeAccess x asid n false

/-- Writes at the place of an engine's access. -/
def State.enginePut (s : State) (w : At) (x : Xl) (asid : Nat) (bs : List Byte) : State :=
  let at' := bs.zipIdx.map fun p => (x.pa + p.2, p.1)
  if s.atCluster x false then s.cluWrite (clusterOf w.core) none asid at' else s.homePuts x asid at'

/-- Reads n bytes of one element or word from memory, or from a buffer. In CK an element, or a word of a digest, is one access, and so one
miss where its line is not pinned; a transport operation makes one for each 32-byte piece (State.opPiece). How many accesses these
operations make, and so what they add to COUNT, is the model's choice (R84; log 64). -/
def State.sideRead (s : State) (w : At) (asid : Nat) (kperm : W64) (buf : Bool) (a : W64) (n : Nat) :
    Except (Fail × W64) (List Byte × State) :=
  if buf then .ok (s.bufRead (clusterOf w.core) asid a n)
  else match s.engineXlate w asid kperm a n .load with
  | .error f => .error f
  | .ok x => .ok ((s.coreFill w.core asid a.toNat).engineGet w x asid n)

/-- Writes the bytes of one element or word. -/
def State.sideWrite (s : State) (w : At) (asid : Nat) (kperm : W64) (buf : Bool) (a : W64) (bs : List Byte) :
    Except (Fail × W64) State :=
  if buf then .ok (s.bufWrite (clusterOf w.core) asid a bs)
  else match s.engineXlate w asid kperm a bs.length .store with
  | .error f => .error f
  | .ok x => .ok ((s.coreFill w.core asid a.toNat).enginePut w x asid bs)

/-- Writes a half byte, keeping the other half: one access of its byte (R84; log 64). -/
def State.sideNibble (s : State) (w : At) (asid : Nat) (kperm : W64) (buf : Bool) (a : W64) (high : Bool) (v : Nat) :
    Except (Fail × W64) State :=
  let mix := fun (b : Byte) => if high then BitVec.ofNat 8 (b.toNat % 16 + v % 16 * 16)
    else BitVec.ofNat 8 (b.toNat / 16 * 16 + v % 16)
  if buf then
    .ok (s.bufWrite (clusterOf w.core) asid a [mix ((s.bufRead (clusterOf w.core) asid a 1).1.getD 0 0)])
  else match s.engineXlate w asid kperm a 1 .store with
  | .error f => .error f
  | .ok x =>
    let r := (s.coreFill w.core asid a.toNat).engineGet w x asid 1
    .ok (r.2.enginePut w x asid [mix (r.1.getD 0 0)])

/-! ## Overlaps (R100) -/

/-- The places of a side's ranges: memory, or a buffer, as numbers that no other kind shares. -/
def sidePlaces (buf : Bool) (base : W64) (rs : List (Int × Nat)) : List (Nat × Nat) :=
  rs.map fun r => ((addrAt base r.1).toNat + (if buf then 2 ^ 64 else 0), r.2)

/-- How many ranges hold a byte. -/
def hitCount (rs : List (Nat × Nat)) (a : Nat) : Nat := (rs.filter fun r => r.1 ≤ a && a < r.1 + r.2).length

/-- Whether a destination byte lies in an overlap of a copy with its source or with itself (R100). -/
def cpOverlaps (ws : List W64) (buf : Bool) (a : W64) : Bool :=
  let n := a.toNat + (if buf then 2 ^ 64 else 0)
  let src := sidePlaces (cpSkind ws) (wd ws 0) (cpSrcRanges ws) ++
    (if cpMxs ws then sidePlaces (cpSckind ws) (wd ws 7) (cpScaleRanges ws) else [])
  let dst := sidePlaces (cpDkind ws) (wd ws 1) (cpDstRanges ws) ++
    (if cpMxd ws then sidePlaces (cpSckind ws) (wd ws 7) (cpScaleRanges ws) else [])
  0 < hitCount src n || 1 < hitCount dst n

/-- The bytes of an element as they stand after the write: free values in an overlap (R100). -/
def State.blur (s : State) (ws : List W64) (buf : Bool) (a : W64) (bs : List Byte) : List Byte × State :=
  let hit := fun (i : Nat) => cpOverlaps ws buf (a + BitVec.ofNat 64 i)
  if (List.range bs.length).any hit then
    (bs.zipIdx.map fun p => if hit p.2 then Config.overlapByte s.fresh (a.toNat + p.2) else p.1, s.draw.2)
  else (bs, s)

/-! ## Entries -/

/-- The first entry of queue q of a context. -/
def Ctx.headOf (c : Ctx) (q : Nat) : Option CopyEnt := c.copyq.find? fun e => e.q == q

/-- Changes the first entry of a list that belongs to queue q. -/
def updFirst (q : Nat) (f : CopyEnt → CopyEnt) : List CopyEnt → List CopyEnt
  | [] => []
  | e :: l => if e.q = q then f e :: l else e :: updFirst q f l

/-- Removes the first entry of a list that belongs to queue q. -/
def dropFirst (q : Nat) : List CopyEnt → List CopyEnt
  | [] => []
  | e :: l => if e.q = q then l else e :: dropFirst q l

/-- Changes the first entry of a queue. -/
def State.updEnt (s : State) (w : At) (q : Nat) (f : CopyEnt → CopyEnt) : State :=
  s.updCtx w fun c => { c with copyq := updFirst q f c.copyq }

/-- The bits of element i0 of a row at a side (R20). -/
def State.elemBits (s : State) (w : At) (e : CopyEnt) (buf : Bool) (base : W64) (f : Nat) (row : Int) (i0 : Nat) :
    Except (Fail × W64) (Nat × State) :=
  match s.sideRead w e.asid e.kperm buf (addrAt base (row + (cpElemOff f i0 : Int))) (fmtBytes f) with
  | .error x => .error x
  | .ok r => .ok (if f = 5 then (r.1.getD 0 0).toNat / (if i0 % 2 = 1 then 16 else 1) % 16 else ofBytes r.1, r.2)

/-- Writes the bits of element i0 of a row of the destination. -/
def State.putElem (s : State) (w : At) (e : CopyEnt) (row : Int) (i0 v : Nat) : Except (Fail × W64) State :=
  let ws := e.words
  let f := cpDfmt ws
  let a := addrAt (wd ws 1) (row + (cpElemOff f i0 : Int))
  if f = 5 then
    if cpOverlaps ws (cpDkind ws) a then
      s.draw.2.sideWrite w e.asid e.kperm (cpDkind ws) a [Config.overlapByte s.fresh a.toNat]
    else s.sideNibble w e.asid e.kperm (cpDkind ws) a (i0 % 2 == 1) v
  else
    let r := s.blur ws (cpDkind ws) a (toBytes (fmtBytes f) v)
    r.2.sideWrite w e.asid e.kperm (cpDkind ws) a r.1

/-- Adds a value to its tile's sums (R114, R201). -/
def State.sigAdd (s : State) (w : At) (e : CopyEnt) (i0 i1 : Nat) (v : Num) : State :=
  let ws := e.words
  if !cpSig ws then s
  else
    let b := s.block (dieOf w.core) (cpSigblk ws)
    match sigPlace b (wd ws 0) (cpSkind ws) (cpSstr ws 1) (cpSfmt ws) with
    | none => s
    | some p =>
      let t := sigTile b p i0 i1
      s.updEnt w e.q fun x => { x with sums := tset x.sums t.1 (sigStep (tget [] x.sums t.1) t.2.1 t.2.2 v) }

/-- The SR key of a copy (R101). -/
def State.cpKey (s : State) (w : At) (ws : List W64) : W64 := s.streamKey w + BitVec.ofNat 64 (cpTag ws)

/-- One element of a copy without block scales (R100, R101). -/
def State.copyElem (s : State) (w : At) (e : CopyEnt) (i : Nat) : Except (Fail × W64) State :=
  let ws := e.words
  let r := i / max 1 (cpD ws 0)
  let i0 := i % max 1 (cpD ws 0)
  match s.elemBits w e (cpSkind ws) (wd ws 0) (cpSfmt ws) (cpSrcRow ws r) i0 with
  | .error f => .error f
  | .ok (b, s) =>
    let v := if cpSfmt ws = cpDfmt ws then b
      else convert (cpSfmt ws) (cpDfmt ws) (RM.ofCode (cpRm ws)) (cpSat ws) (s.cpKey w ws) i b
    match s.putElem w e (cpDstRow ws r) i0 v with
    | .error f => .error f
    | .ok s => .ok (s.sigAdd w e i0 r (elemValue (cpDfmt ws) v))

/-- Reads the 32 elements of a block. -/
def State.blockBits (s : State) (w : At) (e : CopyEnt) (r j : Nat) : Except (Fail × W64) (List Nat × State) :=
  let ws := e.words
  (List.range 32).foldl (fun acc k => match acc with
    | .error f => .error f
    | .ok (l, s) => match s.elemBits w e (cpSkind ws) (wd ws 0) (cpSfmt ws) (cpSrcRow ws r) (32 * j + k) with
      | .error f => .error f
      | .ok (b, s) => .ok (l ++ [b], s)) (.ok ([], s))

/-- The first failure that the writes of a block would meet (R103): its elements, then its scale byte. The spec counts a fault on the
scale byte as one at the block's first element and does not say which of a block's faults is the one reported; the model takes
the reads before the writes, and the element writes before the scale's (log 55). -/
def State.blockFault (s : State) (w : At) (e : CopyEnt) (r j : Nat) : Option (Fail × W64) :=
  let ws := e.words
  let chk := fun (buf : Bool) (a : W64) (n : Nat) => if buf then none
    else match s.engineXlate w e.asid e.kperm a n .store with
      | .error f => some f
      | .ok _ => none
  match (List.range 32).findSome? fun k =>
      chk (cpDkind ws) (addrAt (wd ws 1) (cpDstRow ws r + (cpElemOff (cpDfmt ws) (32 * j + k) : Int)))
        (fmtBytes (cpDfmt ws)) with
  | some f => some f
  | none => if cpMxd ws then chk (cpDkind ws) (wd ws 7 + BitVec.ofNat 64 (r * cpPitch ws + j)) 1 else none

/-- One block of a block-scaled copy (R102, R103): its scale, its source elements, then its writes. -/
def State.copyBlock (s : State) (w : At) (e : CopyEnt) (i : Nat) : Except (Fail × W64) State :=
  let ws := e.words
  let nb := max 1 (cpD ws 0 / 32)
  let r := i / nb
  let j := i % nb
  let sa := wd ws 7 + BitVec.ofNat 64 (r * cpPitch ws + j)
  match (if cpMxs ws then s.sideRead w e.asid e.kperm (cpSkind ws) sa 1 else .ok ([127], s)) with
  | .error f => .error f
  | .ok (sc, s) => match s.blockBits w e r j with
    | .error f => .error f
    | .ok (bs, s) => match s.blockFault w e r j with
      | some f => .error f
      | none =>
        let xs := bs.map fun b => applyScale false (sc.getD 0 0).toNat (elemValue (cpSfmt ws) b)
        let g := sharedExp xs (cpDfmt ws)
        let ys := if cpMxd ws then xs.map (applyScale true g) else xs
        let out := ys.zipIdx.map fun p => roundTo (cpDfmt ws) (RM.ofCode (cpRm ws)) (cpSat ws) (s.cpKey w ws)
          (cpD ws 0 * r + 32 * j + p.2) p.1.toXR
        let put := fun (acc : Except (Fail × W64) State) (p : Nat × Nat) => match acc with
          | .error f => .error f
          | .ok s => match s.putElem w e (cpDstRow ws r) (32 * j + p.2) p.1 with
            | .error f => .error f
            | .ok s =>
              let v := elemValue (cpDfmt ws) p.1
              .ok (s.sigAdd w e (32 * j + p.2) r (if cpMxd ws then applyScale false g v else v))
        match out.zipIdx.foldl put (.ok s) with
        | .error f => .error f
        | .ok s =>
          if cpMxd ws then
            let b := s.blur ws (cpDkind ws) sa [BitVec.ofNat 8 g]
            b.2.sideWrite w e.asid e.kperm (cpDkind ws) sa b.1
          else .ok s

/-- The signature that part i of the deliveries writes (R114, R203). -/
def State.deliver (s : State) (w : At) (e : CopyEnt) (i : Nat) : Except (Fail × W64) State :=
  let b := s.block (dieOf w.core) (cpSigblk e.words)
  match sigPlace b (wd e.words 0) (cpSkind e.words) (cpSstr e.words 1) (cpSfmt e.words) with
  | none => .ok s
  | some p =>
    let j := (sigTiles b p (cpD e.words 0) (cpD e.words 1)).getD i 0
    let sums := match (s.ctx w).headOf e.q with
      | some x => tget [] x.sums j
      | none => []
    s.seqWrite (dieOf w.core) (bkAsid b) (bkCur b j) (sigRecord sums)

/-- Deliveries of an entry. -/
def State.deliveries (s : State) (w : At) (ws : List W64) : Nat :=
  let b := s.block (dieOf w.core) (cpSigblk ws)
  if cpSig ws then cpD ws 0 / max 1 (bkTc b) * (cpD ws 1 / max 1 (bkTr b)) else 0

/-- Words of a digest range. -/
def digWords (ws : List W64) : Nat := (wd ws 1).toNat / 8
/-- Whether a digest reads a buffer. -/
def digBuf (ws : List W64) : Bool := bit (wd ws 2) 0

/-- One word of a digest (R324). -/
def State.digestWord (s : State) (w : At) (e : CopyEnt) (i : Nat) : Except (Fail × W64) State :=
  match s.sideRead w e.asid e.kperm (digBuf e.words) (wd e.words 0 + BitVec.ofNat 64 (8 * i)) 8 with
  | .error f => .error f
  | .ok r => .ok (r.2.updEng w fun x => { x with dg := mix64 x.dg (w64 r.1) })

/-- Units of an entry: elements, blocks or words; and units in one transfer of up to 256 bytes (R98). -/
def CopyEnt.units (e : CopyEnt) : Nat × Nat :=
  match e.kind with
  | .digest => (digWords e.words, 32)
  | _ =>
    let per := 2048 / max (fmtWidth (cpSfmt e.words)) (fmtWidth (cpDfmt e.words))
    if cpMx e.words then (cpN e.words / 32, max 1 (per / 32)) else (cpN e.words, per)

/-- The row and the first element of a unit of a copy. -/
def CopyEnt.unitAt (e : CopyEnt) (i : Nat) : Nat × Nat :=
  let n := cpD e.words 0
  if cpMx e.words then (i / max 1 (n / 32), i % max 1 (n / 32) * 32) else (i / max 1 n, i % max 1 n)

/-- The first and last bytes of a unit at a side. -/
def CopyEnt.unitBytes (e : CopyEnt) (dst : Bool) (i : Nat) : Nat × Nat :=
  let ws := e.words
  match e.kind with
  | .digest => ((wd ws 0).toNat + 8 * i, (wd ws 0).toNat + 8 * i + 7)
  | _ =>
    let f := if dst then cpDfmt ws else cpSfmt ws
    let q := e.unitAt i
    let row := if dst then addrAt (wd ws 1) (cpDstRow ws q.1) else addrAt (wd ws 0) (cpSrcRow ws q.1)
    (row.toNat + cpElemOff f q.2, row.toNat + cpElemOff f (q.2 + if cpMx ws then 31 else 0) + fmtBytes f - 1)

/-- Whether unit i begins a 32-byte unit of the source and of the destination that unit i − 1 has no byte of (R96). -/
def CopyEnt.seam (e : CopyEnt) (i : Nat) : Bool :=
  [false, true].all fun d => (e.unitBytes d (i - 1)).2 / 32 != (e.unitBytes d i).1 / 32

/-- The last seam after `i` and up to i + n. -/
def CopyEnt.seamBack (e : CopyEnt) (i : Nat) : Nat → Option Nat
  | 0 => none
  | n + 1 => if e.seam (i + n + 1) then some (i + n + 1) else e.seamBack i n

/-- The first seam from `i`, or i + n. -/
def CopyEnt.seamOn (e : CopyEnt) (i : Nat) : Nat → Nat
  | 0 => i
  | n + 1 => if e.seam i then i else e.seamOn (i + 1) n

/-- The units of the transfer that begins at unit i: up to 256 bytes, but never part of a 32-byte unit, so that none is seen half-written
or read in halves (R96, R98; log 24). -/
def CopyEnt.turn (e : CopyEnt) (i : Nat) : Nat :=
  let u := e.units
  if u.1 ≤ i + u.2 then u.1 - i else ((e.seamBack i u.2).getD (e.seamOn (i + u.2) (u.1 - i - u.2))) - i

/-- What one unit counts for in COUNT. -/
def CopyEnt.weight (e : CopyEnt) : Nat :=
  match e.kind with
  | .copy => if cpMx e.words then 32 else 1
  | _ => 1

/-- One unit of an entry. -/
def State.copyUnit (s : State) (w : At) (e : CopyEnt) (i : Nat) : Except (Fail × W64) State :=
  match e.kind with
  | .digest => s.digestWord w e i
  | _ => if cpMx e.words then s.copyBlock w e i else s.copyElem w e i

/-- Whether the reads of a unit succeed, so that a failure of it is one of a write. -/
def State.unitReads (s : State) (w : At) (e : CopyEnt) (i : Nat) : Bool :=
  match e.kind with
  | .digest => false
  | _ =>
    let ws := e.words
    let q := e.unitAt i
    let sa := wd ws 7 + BitVec.ofNat 64 (q.1 * cpPitch ws + q.2 / 32)
    (!cpMxs ws || (s.sideRead w e.asid e.kperm (cpSkind ws) sa 1).isOk) &&
    (if cpMx ws then (s.blockBits w e q.1 (q.2 / 32)).isOk
     else (s.elemBits w e (cpSkind ws) (wd ws 0) (cpSfmt ws) (cpSrcRow ws q.1) q.2).isOk)

/-- The status that an entry ends with when it is examined, with its address; none if it runs (R104, R324). -/
def State.copyVerdict (s : State) (w : At) (e : CopyEnt) : Option (Nat × W64) :=
  match e.kind with
  | .digest =>
    if (wd e.words 0).toNat % 8 != 0 || (wd e.words 1).toNat % 8 != 0 then some (2, 0)
    else if digBuf e.words then
      (rangeBad (wd e.words 0) [(0, (wd e.words 1).toNat)]).map fun a => (3, a)
    else none
  | _ =>
    if cpBadShape e.words || s.cpSigBad (dieOf w.core) e.asid e.words then some (2, 0)
    else (cpRangeBad e.words).map fun a => (3, a)

/-- The ranges that an entry reads, with their kind and base. -/
def CopyEnt.reads (e : CopyEnt) : List (Bool × W64 × List (Int × Nat)) :=
  match e.kind with
  | .digest => [(digBuf e.words, wd e.words 0, [(0, (wd e.words 1).toNat)])]
  | _ => (cpSkind e.words, wd e.words 0, cpSrcRanges e.words) ::
    (if cpMxs e.words then [(cpSckind e.words, wd e.words 7, cpScaleRanges e.words)] else [])

/-- The ranges that an entry writes. -/
def CopyEnt.writes (e : CopyEnt) : List (Bool × W64 × List (Int × Nat)) :=
  match e.kind with
  | .digest => []
  | _ => (cpDkind e.words, wd e.words 1, cpDstRanges e.words) ::
    (if cpMxd e.words then [(cpSckind e.words, wd e.words 7, cpScaleRanges e.words)] else [])

/-- Whether an entry touches a pending region of CB (R189). -/
def State.copyPending (s : State) (w : At) (e : CopyEnt) : Bool :=
  (e.reads ++ e.writes).any fun x => x.1 && bufSpace x.2.1 == 2 &&
    x.2.2.any fun r =>
      let k := s.core (bufCore (clusterOf w.core) x.2.1)
      k.pending.any fun q => q.2.touches ((bufOff x.2.1 : Int) + r.1).toNat r.2

/-- Whether bytes that an engine is to read for a context are those of an entry of its lees log, or lie in a line in which a release
of the context is held at its place (R311, R343). -/
def State.readHeld (s : State) (w : At) (trid asid : Nat) (a : W64) (n : Nat) : Bool :=
  (s.core w.core).lees.any (fun l => l.ctx == w.ctx && l.trid == trid && l.overlaps asid a n) ||
  (s.hasHeld trid && (List.range (n / 128 + 2)).any fun i =>
    let b := a + BitVec.ofNat 64 (min (128 * i) (n - 1))
    match s.engineXlate w asid 0 b 1 .none with
    | .ok x => s.heldOverlap trid (x.pa / 128 * 128) 128
    | .error _ => false)

/-- Whether a read of an entry has to wait for an earlier store of its context (R343). -/
def State.copyLees (s : State) (w : At) (e : CopyEnt) : Bool :=
  e.reads.any fun x => !x.1 && x.2.2.any fun r =>
    s.readHeld w (s.ctx w).tridN e.asid (addrAt x.2.1 r.1) r.2

/-- The first page in host bias that an entry waits for, with what it starts (R387). -/
def State.copyBias (s : State) (w : At) (e : CopyEnt) : Option (State → State) :=
  let wait := fun (write : Bool) (x : Bool × W64 × List (Int × Nat)) => if x.1 then none else x.2.2.findSome? fun r =>
    (List.range (r.2 / 128 + 2)).findSome? fun i =>
      let a := addrAt x.2.1 (r.1 + (min (128 * i) (r.2 - 1) : Nat))
      (s.coreWalkWait w.core e.asid ((s.ctx w).extentFor a.toNat 1) a 1).or (match s.engineXlate w e.asid e.kperm a 1 .none with
        | .ok y => s.placeWait (clusterOf w.core) y false write 1
        | .error _ => none)
  if !s.coherentHost then none else (e.reads.findSome? (wait false)).or (e.writes.findSome? (wait true))

/-- The bias that the signature records of an entry wait for (R203, R387). -/
def State.deliverBias (s : State) (w : At) (e : CopyEnt) : Option (State → State) :=
  let b := s.block (dieOf w.core) (cpSigblk e.words)
  s.unitBias .stepSeq (dieOf w.core) (bkAsid b) true [(bkCur b 0, 32 * bkTiles b)]

/-- Whether the first entry of a queue has a transfer to make; its first comes after the acquires that its context waits for
(R333). -/
def State.copyReady (s : State) (w : At) (e : CopyEnt) : Bool :=
  (match e.kind with
    | .fence _ _ => false
    | _ => true) &&
  !e.ended && e.status == 0 && (e.paused.map (·.declined)).getD true &&
  (s.ctx w).sched.run != .idle && ((s.ctx w).sched.stop.isNone || e.started) &&
  (e.started || !(s.copyPending w e || s.acqBusy w)) && !s.copyLees w e

/-- Ends an entry with a status. -/
def CopyEnt.stop (e : CopyEnt) (status fkind : Nat) (addr : W64) : CopyEnt :=
  { e with ended := true, status := status, fkind := fkind, addr := addr, paused := none }

/-- What a failure of a read or a write does to the entry at the head of queue q: a pause with a page request, or FAULT (R66, R103,
R114). -/
def State.copyFail (s : State) (w : At) (e : CopyEnt) (asid : Nat) (f : Fail × W64) (write : Bool) : State :=
  if f.1.pauses e.paused then
    let s := s.updEnt w e.q fun x => { x with paused := some { asid := asid, va := f.2, declined := false } }
    s.pageRequest (dieOf w.core) asid f.2 write.toNat
  else s.updEnt w e.q (CopyEnt.stop · 1 f.1.fkind f.2)

/-- One transfer of an entry's units (R98, R103): what it has moved stays, but for a pause, after which the 32-byte unit that it comes in
is moved again whole (R96). -/
def State.copyUnits (s : State) (w : At) (e : CopyEnt) : State :=
  let n := e.turn e.next
  let run := fun (n : Nat) => seqRun (fun s i => s.copyUnit w e i) n e.next s
  let r := run n
  match r.2.2 with
  | some f =>
    let write := r.1.unitReads w e r.2.1
    let r := if f.1.pauses e.paused && !e.seam r.2.1 then run ((e.seamBack e.next (r.2.1 - e.next)).getD e.next - e.next) else r
    (r.1.updEnt w e.q fun x => { x with next := r.2.1, paused := none }).copyFail w e e.asid f write
  | none =>
    let s := r.1.updEnt w e.q fun x => { x with next := r.2.1, paused := none }
    if r.2.1 = e.units.1 && s.deliveries w e.words = 0 then s.updEnt w e.q (CopyEnt.stop · 0 0 0) else s

/-- One transfer of an entry: its first examination, its units, or its signatures. -/
def State.copyStep (s : State) (w : At) (e : CopyEnt) : State :=
  match (if e.started then none else s.copyVerdict w e) with
  | some v => s.updEnt w e.q fun x => { x.stop v.1 0 v.2 with started := true }
  | none => match s.copyBias w e with
    | some f => f s
    | none =>
    let s := s.updEnt w e.q fun x => { x with started := true }
    if e.next < e.units.1 then s.copyUnits w e
    else match (if e.kind == .copy && cpSig e.words then s.deliverBias w e else none) with
    | some f => f s
    | none =>
      let n := if e.kind == .copy then s.deliveries w e.words else 0
      let r := seqRun (fun s i => s.deliver w e i) (n - e.sigs) e.sigs s
      let s := r.1.updEnt w e.q fun x => { x with sigs := r.2.1, paused := none }
      match r.2.2 with
      | some f => s.copyFail w e (bkAsid (s.block (dieOf w.core) (cpSigblk e.words))) f true
      | none => s.updEnt w e.q (CopyEnt.stop · 0 0 0)

/-- The queues of a core in the order that the engine serves them, from the one after the last served (R98). -/
def queueOrder (rr : Nat) : List (Nat × Nat) :=
  (List.range 16).map fun i => let k := (rr + 1 + i) % 16; (k / 4, k % 4)

/-- The next queue with a transfer ready: its context, queue and entry. -/
def State.copyNext (s : State) (core : Nat) : Option (Nat × CopyEnt) :=
  (queueOrder (s.core core).rr).findSome? fun k => match (s.ctx ⟨core, k.1⟩).headOf k.2 with
    | some e => if s.copyReady ⟨core, k.1⟩ e then some (k.1, e) else none
    | none => none

/-- COPY_TRANSFER. -/
def State.copyTransfer (s : State) (core : Nat) : State :=
  match s.copyNext core with
  | none => s
  | some (c, e) => (s.updCore core fun k => { k with rr := 4 * c + e.q }).copyStep ⟨core, c⟩ e

/-- Whether the first entry of a queue is ready to complete (R105, R109). -/
def State.copyDone (s : State) (w : At) (q : Nat) : Option CopyEnt :=
  match (s.ctx w).headOf q with
  | some e => match e.kind with
    | .fence _ _ => none
    | _ => if (e.ended || e.status != 0) && (!e.evt || (s.ctx w).evRoom || (s.ctx w).sched.stop.isSome) then some e else none
  | none => none

/-- Halts queue q: its HALT bit is set and the entries in it will be skipped (R107). -/
def State.haltQueue (s : State) (w : At) (q : Nat) : State :=
  let skip := fun (x : CopyEnt) => { x with status := 4 }
  (s.updEng w fun x => { x with haltq := x.haltq ||| 2 ^ q }).updCtx w fun c =>
    { c with copyq := mapIf (fun x => x.q == q) skip c.copyq }

/-- COPY_ENTRY_COMPLETE (R105, R107, R112). -/
def State.copyComplete (s : State) (w : At) (q : Nat) : State :=
  match s.copyDone w q with
  | none => s
  | some e =>
    let s := if e.evt then s.postOrOwe w ⟨recW0 e.tag 0 e.status q e.fkind (e.next * e.weight), e.addr⟩ else s
    let s := s.updCtx w fun c => { c with copyq := dropFirst q c.copyq }
    let s := if e.status != 0 && e.status != 4 then s.haltQueue w q else s
    match e.ring with
    | some (h, slot) => s.slotDone w h slot
    | none => s

/-- The queues that a fence's mask names. -/
def maskQueues (m : Nat) : List Nat := (List.range 4).filter fun q => m.testBit q

/-- QFENCE_COMPLETE of the fence whose lowest named queue is q (R106, R307). -/
def State.fenceComplete (s : State) (w : At) (q : Nat) : State :=
  match (s.ctx w).headOf q with
  | none => s
  | some e => match e.kind with
    | .fence m id =>
      let qs := maskQueues m
      let ready := qs.all fun j => match (s.ctx w).headOf j with
        | some x => x.kind == .fence m id
        | none => false
      if !(ready && qs.head? == some q) || (e.evt && !(s.ctx w).evRoom) then s
      else
        let s := if e.evt then s.post w ⟨recW0 e.tag 0 e.status q 0 0, 0⟩ else s
        s.updCtx w fun c => { c with copyq := qs.foldl (fun l j => dropFirst j l) c.copyq }
    | _ => s

/-! ## The meanings of the events -/

/-- COPY_TRANSFER. -/
def execCopyTransfer (core : Nat) (s : State) : Host.Outcome State Fault Refusal := .next (s.copyTransfer core)
/-- COPY_ENTRY_COMPLETE. -/
def execCopyEntryComplete (core ctx q : Nat) (s : State) : Host.Outcome State Fault Refusal :=
  .next (s.copyComplete ⟨core, ctx⟩ q)
/-- QFENCE_COMPLETE. -/
def execQfenceComplete (core ctx q : Nat) (s : State) : Host.Outcome State Fault Refusal :=
  .next (s.fenceComplete ⟨core, ctx⟩ q)

end Sys2Proof.Machine
end

