-- ==== Sys2Proof/Decode.lean ====
section
/-! DEFINITION. Slot words, bundles and transport-core words: decoding, and the encoder from the same tables
(R166, R216 to R230, R181, R191, R197, R305 to R326). -/

namespace Sys2Proof

/-! ## Fields of a slot word (Table 10-3) -/

/-- LANE of a slot word. -/
def laneOf (w : W32) : Nat := (w.extractLsb' 28 3).toNat
/-- OP of a slot word. -/
def opOf (w : W32) : Nat := (w.extractLsb' 22 6).toNat
/-- Bits 21:0 of a slot word. -/
def payOf (w : W32) : BitVec 22 := w.extractLsb' 0 22
/-- STOP. -/
def stopOf (w : W32) : Bool := w.getLsbD 31

/-- Bits 21:17. -/
def pD (p : BitVec 22) : R5 := p.extractLsb' 17 5
/-- Bits 16:12. -/
def pA (p : BitVec 22) : R5 := p.extractLsb' 12 5
/-- Bits 11:7. -/
def pB (p : BitVec 22) : R5 := p.extractLsb' 7 5
/-- Bits 6:0. -/
def pF (p : BitVec 22) : BitVec 7 := p.extractLsb' 0 7
/-- Bits 11:0. -/
def pI (p : BitVec 22) : BitVec 12 := p.extractLsb' 0 12
/-- Bits 16:13 of an LS slot. -/
def pAr (p : BitVec 22) : BitVec 4 := p.extractLsb' 13 4
/-- Bits 12:0 of an LS slot. -/
def pL (p : BitVec 22) : BitVec 13 := p.extractLsb' 0 13

/-- An instruction whose reserved fields are zero. -/
def guard' (ok : Bool) (i : Instr) : Option Instr := if ok then some i else none

/-- The opcodes that a map marks wide (Tables 10-9 to 10-14). -/
def wideOp (lane op : Nat) : Bool :=
  match lane with
  | 0 => op == 0x30
  | 1 => op == 0x30
  | 2 => Nat.ble 0x21 op && Nat.ble op 0x2C
  | 3 => Nat.ble 0x21 op && Nat.ble op 0x23
  | 6 => op == 0x19 || op == 0x1A
  | 7 => op == 0x0A
  | _ => false

/-! ## Decoding by lane -/

/-- CPY in any lane (Table 10-2). -/
def decCpy (l : CpyLane) (p : BitVec 22) : Option Instr :=
  guard' (p.extractLsb' 0 3 == 0) (.cpy l (pD p) (p.extractLsb' 14 3) (p.extractLsb' 9 5) (p.extractLsb' 4 5) (p.getLsbD 3))

/-- The A form: bits 6:0 reserved (Table 10-4). -/
def decA (p : BitVec 22) (i : R5 → R5 → R5 → Instr) : Option Instr := guard' (pF p == 0) (i (pD p) (pA p) (pB p))

/-- SX and SY (Table 10-9). -/
def decScalar (f : SFile) (op : Nat) (p : BitVec 22) (x : BitVec 31) : Option Instr :=
  match op with
  | 1 => decA p fun d a b => .add f d a (.reg b)
  | 2 => decA p (.sub f)
  | 3 => decA p fun d a b => .mul f d a (.reg b)
  | 4 => decA p (.mulh f)
  | 5 => decA p (.mulhu f)
  | 6 => decA p (.div f)
  | 7 => decA p (.divu f)
  | 8 => decA p (.rem f)
  | 9 => decA p fun d a b => .and f d a (.reg b)
  | 10 => decA p fun d a b => .or f d a (.reg b)
  | 11 => decA p fun d a b => .xor f d a (.reg b)
  | 12 => decA p fun d a b => .shl f d a (.reg b)
  | 13 => decA p fun d a b => .shr f d a (.reg b)
  | 14 => decA p fun d a b => .sar f d a (.reg b)
  | 15 => decA p fun d a b => .min f d a (.reg b)
  | 16 => decA p fun d a b => .max f d a (.reg b)
  | 17 => decA p fun d a b => .minu f d a (.reg b)
  | 18 => decA p fun d a b => .maxu f d a (.reg b)
  | 19 => decA p fun d a b => .seq f d a (.reg b)
  | 20 => decA p fun d a b => .slt f d a (.reg b)
  | 21 => decA p fun d a b => .sltu f d a (.reg b)
  | 22 => guard' (p.extractLsb' 0 2 == 0) (.sel f (pD p) (pA p) (pB p) (p.extractLsb' 2 5))
  | 23 => guard' (pI p == 0) (.clz f (pD p) (pA p))
  | 24 => guard' (pI p == 0) (.popc f (pD p) (pA p))
  | 25 => some (.bfx f (pD p) (pA p) (p.extractLsb' 6 6) (p.extractLsb' 0 6))
  | 26 => some (.bfi f (pD p) (pA p) (p.extractLsb' 6 6) (p.extractLsb' 0 6))
  | 27 => guard' (!p.getLsbD 6) (.addsh f (pD p) (pA p) (pB p) (p.extractLsb' 0 6))
  | 32 => some (.add f (pD p) (pA p) (.imm (pI p)))
  | 33 => some (.mul f (pD p) (pA p) (.imm (pI p)))
  | 34 => some (.and f (pD p) (pA p) (.imm (pI p)))
  | 35 => some (.or f (pD p) (pA p) (.imm (pI p)))
  | 36 => some (.xor f (pD p) (pA p) (.imm (pI p)))
  | 37 => some (.shl f (pD p) (pA p) (.imm (pI p)))
  | 38 => some (.shr f (pD p) (pA p) (.imm (pI p)))
  | 39 => some (.sar f (pD p) (pA p) (.imm (pI p)))
  | 40 => some (.min f (pD p) (pA p) (.imm (pI p)))
  | 41 => some (.max f (pD p) (pA p) (.imm (pI p)))
  | 42 => some (.minu f (pD p) (pA p) (.imm (pI p)))
  | 43 => some (.maxu f (pD p) (pA p) (.imm (pI p)))
  | 44 => some (.seq f (pD p) (pA p) (.imm (pI p)))
  | 45 => some (.slt f (pD p) (pA p) (.imm (pI p)))
  | 46 => some (.sltu f (pD p) (pA p) (.imm (pI p)))
  | 48 => some (.li f (pD p) (p.getLsbD 16) (p.extractLsb' 0 16) x)
  | 49 => guard' (pA p == 0) (.mfs f (pD p) (pI p))
  | 50 => guard' (pD p == 0) (.mts f (pA p) (pI p))
  | 62 => decCpy (match f with
    | .x => .sx
    | .y => .sy) p
  | _ => none

/-- The fields of a VA slot (Table 10-5). -/
def vOpd (p : BitVec 22) : VOpd := ⟨pD p, pA p, pB p, p.extractLsb' 4 3, p.extractLsb' 0 4⟩
/-- The fields of an FM slot (Table 10-5). -/
def fOpd (p : BitVec 22) : FOpd := ⟨pD p, pA p, pB p, p.extractLsb' 4 3, p.extractLsb' 0 4⟩
/-- The extension of a wide twin (Table 10-6). -/
def rndOf (x : BitVec 31) : Rnd := ⟨x.extractLsb' 28 3, x.getLsbD 27, x.extractLsb' 0 24⟩
/-- Whether bits 26:24 of an extension are zero. -/
def rndOk (x : BitVec 31) : Bool := x.extractLsb' 24 3 == 0

/-- KAND to KPOP (R275): kd 19:17, ka 14:12, kb 9:7, the rest reserved. -/
def decK (p : BitVec 22) (i : BitVec 3 → BitVec 3 → BitVec 3 → Instr) : Option Instr :=
  guard' (p.extractLsb' 20 2 == 0 && p.extractLsb' 15 2 == 0 && p.extractLsb' 10 2 == 0 && pF p == 0)
    (i (p.extractLsb' 17 3) (p.extractLsb' 12 3) (p.extractLsb' 7 3))

/-- KNOT and KPOP: kb reserved too. -/
def decK1 (p : BitVec 22) (i : BitVec 3 → BitVec 3 → Instr) : Option Instr :=
  guard' (p.extractLsb' 20 2 == 0 && p.extractLsb' 15 2 == 0 && p.extractLsb' 0 12 == 0)
    (i (p.extractLsb' 17 3) (p.extractLsb' 12 3))

/-- VA (Table 10-10). -/
def decVA (op : Nat) (p : BitVec 22) (x : BitVec 31) : Option Instr :=
  match op with
  | 1 => some (.vadd (vOpd p) none)
  | 2 => some (.vsub (vOpd p) none)
  | 3 => some (.vmul (vOpd p) none)
  | 4 => some (.vfma (vOpd p) none)
  | 5 => some (.vfms (vOpd p) none)
  | 6 => some (.vexp2 (vOpd p) none)
  | 7 => some (.vlog2 (vOpd p) none)
  | 8 => some (.vrcp (vOpd p) none)
  | 9 => some (.vrsq (vOpd p) none)
  | 10 => some (.vcvt (vOpd p) none)
  | 11 => some (.vreds (vOpd p) none)
  | 12 => some (.vscan (vOpd p) none)
  | 16 => some (.vmax (vOpd p))
  | 17 => some (.vmin (vOpd p))
  | 18 => some (.vabs (vOpd p))
  | 19 => some (.vneg (vOpd p))
  | 20 => some (.vcmp (vOpd p))
  | 21 => some (.vsel (vOpd p))
  | 22 => some (.vand (vOpd p))
  | 23 => some (.vor (vOpd p))
  | 24 => some (.vxor (vOpd p))
  | 25 => some (.vnot (vOpd p))
  | 26 => some (.vshl (vOpd p))
  | 27 => some (.vshr (vOpd p))
  | 28 => some (.vsar (vOpd p))
  | 29 => some (.vredm (vOpd p))
  | 30 => some (.vbcast (vOpd p))
  | 31 => some (.viota (vOpd p))
  | 33 => guard' (rndOk x) (.vadd (vOpd p) (some (rndOf x)))
  | 34 => guard' (rndOk x) (.vsub (vOpd p) (some (rndOf x)))
  | 35 => guard' (rndOk x) (.vmul (vOpd p) (some (rndOf x)))
  | 36 => guard' (rndOk x) (.vfma (vOpd p) (some (rndOf x)))
  | 37 => guard' (rndOk x) (.vfms (vOpd p) (some (rndOf x)))
  | 38 => guard' (rndOk x) (.vexp2 (vOpd p) (some (rndOf x)))
  | 39 => guard' (rndOk x) (.vlog2 (vOpd p) (some (rndOf x)))
  | 40 => guard' (rndOk x) (.vrcp (vOpd p) (some (rndOf x)))
  | 41 => guard' (rndOk x) (.vrsq (vOpd p) (some (rndOf x)))
  | 42 => guard' (rndOk x) (.vcvt (vOpd p) (some (rndOf x)))
  | 43 => guard' (rndOk x) (.vreds (vOpd p) (some (rndOf x)))
  | 44 => guard' (rndOk x) (.vscan (vOpd p) (some (rndOf x)))
  | 48 => some (.vgauss (vOpd p))
  | 49 => some (.vrand (vOpd p))
  | 50 => decK p .kand
  | 51 => decK p .kor
  | 52 => decK p .kxor
  | 53 => decK1 p .knot
  | 54 => decK1 p .kpop
  | 62 => decCpy .va p
  | _ => none

/-- FM (Table 10-11). -/
def decFM (op : Nat) (p : BitVec 22) (x : BitVec 31) : Option Instr :=
  match op with
  | 1 => some (.pack (fOpd p) none)
  | 2 => some (.vscale (fOpd p) none)
  | 3 => some (.swjoin (fOpd p) none)
  | 16 => some (.unpack (fOpd p))
  | 17 => some (.bscale (fOpd p))
  | 18 => some (.perm (fOpd p))
  | 19 => some (.zip (fOpd p))
  | 20 => some (.unzip (fOpd p))
  | 21 => some (.xpose (fOpd p))
  | 22 => some (.rnsenc (fOpd p))
  | 23 => some (.rnsdec (fOpd p))
  | 24 => some (.cpye (fOpd p))
  | 25 => some (.swsplit (fOpd p))
  | 33 => guard' (rndOk x) (.pack (fOpd p) (some (rndOf x)))
  | 34 => guard' (rndOk x) (.vscale (fOpd p) (some (rndOf x)))
  | 35 => guard' (rndOk x) (.swjoin (fOpd p) (some (rndOf x)))
  | 62 => decCpy .fm p
  | _ => none

/-- The LM sub-form (Table 10-7). -/
def lmOpd (p : BitVec 22) : LmOpd := ⟨pD p, pAr p, p.extractLsb' 10 3, p.extractLsb' 8 2, p.extractLsb' 0 8⟩
/-- The LA sub-form. -/
def laOpd (p : BitVec 22) : LaOpd :=
  ⟨pD p, pAr p, p.extractLsb' 10 3, p.extractLsb' 8 2, p.extractLsb' 3 5, p.getLsbD 2, p.extractLsb' 0 2⟩
/-- The LB sub-form. -/
def lbOpd (p : BitVec 22) : LbOpd := ⟨pD p, pAr p, p.extractLsb' 11 2, p.getLsbD 10, p.extractLsb' 0 10⟩

/-- Scalar loads and stores of rows 0 and 1 (Table 10-12). -/
def decLs (f : SFile) (op : Nat) (p : BitVec 22) : Option Instr :=
  match op with
  | 1 => some (.ld f .s8 (lmOpd p))
  | 2 => some (.ld f .z8 (lmOpd p))
  | 3 => some (.ld f .s16 (lmOpd p))
  | 4 => some (.ld f .z16 (lmOpd p))
  | 5 => some (.ld f .s32 (lmOpd p))
  | 6 => some (.ld f .z32 (lmOpd p))
  | 7 => some (.ld f .d64 (lmOpd p))
  | 8 => some (.st f .b8 (lmOpd p))
  | 9 => some (.st f .b16 (lmOpd p))
  | 10 => some (.st f .b32 (lmOpd p))
  | 11 => some (.st f .b64 (lmOpd p))
  | _ => none

/-- The LV sub-form: bits 9:8 reserved. -/
def decLv (p : BitVec 22) (i : R5 → BitVec 4 → BitVec 3 → BitVec 8 → Instr) : Option Instr :=
  guard' (p.extractLsb' 8 2 == 0) (i (pD p) (pAr p) (p.extractLsb' 10 3) (p.extractLsb' 0 8))

/-- The LX sub-form with a stride register: bits 9:8, 3 and 0 reserved. -/
def decLxs (p : BitVec 22) (i : R5 → BitVec 4 → BitVec 3 → BitVec 4 → BitVec 2 → Instr) : Option Instr :=
  guard' (p.extractLsb' 8 2 == 0 && !p.getLsbD 3 && !p.getLsbD 0)
    (i (pD p) (pAr p) (p.extractLsb' 10 3) (p.extractLsb' 4 4) (p.extractLsb' 1 2))

/-- The LX sub-form with an index register: bits 9:8 and 0 reserved. -/
def decLxi (p : BitVec 22) (i : R5 → BitVec 4 → BitVec 3 → R5 → BitVec 2 → Instr) : Option Instr :=
  guard' (p.extractLsb' 8 2 == 0 && !p.getLsbD 0)
    (i (pD p) (pAr p) (p.extractLsb' 10 3) (p.extractLsb' 3 5) (p.extractLsb' 1 2))

/-- The LF sub-form of CFLUSH and CINV: bits 9:0 reserved. -/
def decLf (p : BitVec 22) (i : R5 → BitVec 4 → BitVec 3 → Instr) : Option Instr :=
  guard' (p.extractLsb' 0 10 == 0) (i (pD p) (pAr p) (p.extractLsb' 10 3))

/-- LS (Table 10-12). -/
def decLS (op : Nat) (p : BitVec 22) : Option Instr :=
  if op < 16 then decLs .x op p
  else if op < 32 then decLs .y (op - 16) p
  else match op with
  | 32 => decLv p .vld
  | 33 => decLv p .vst
  | 34 => decLxs p .vlds
  | 35 => decLxs p .vsts
  | 36 => decLxi p .vgth
  | 37 => decLxi p .vsct
  | 38 => some (.bld (lbOpd p))
  | 39 => some (.bst (lbOpd p))
  | 40 => some (.atadd (laOpd p))
  | 41 => some (.atmin (laOpd p))
  | 42 => some (.atmax (laOpd p))
  | 43 => some (.atxch (laOpd p))
  | 44 => some (.ator (laOpd p))
  | 45 => some (.atand (laOpd p))
  | 46 => some (.atcas (laOpd p))
  | 47 => some (.atcas2 (laOpd p))
  | 48 => guard' (pD p == 0 && pAr p == 0 && p.extractLsb' 0 8 == 0) (.fence (p.extractLsb' 10 3) (p.extractLsb' 8 2))
  | 49 => decLf p .cflush
  | 50 => decLf p .cinv
  | 51 => guard' (pD p == 0 && p.extractLsb' 10 3 == 0) (.pref (pAr p) (p.extractLsb' 8 2) (p.extractLsb' 0 8))
  | 52 => some (.amov (pD p) (pAr p) (pL p))
  | 53 => some (.ainc (pD p) (pAr p) (pL p))
  | 54 => some (.caskAlloc (pD p) (pAr p) (pL p))
  | 55 => some (.caskFree (pD p) (pAr p) (pL p))
  | 56 => guard' (pD p == 0 && pAr p == 0 && p.extractLsb' 0 6 == 0) (.setkp (p.extractLsb' 8 5) (p.extractLsb' 6 2))
  | 62 => decCpy .ls p
  | _ => none

/-- The fields of MMA and MMAG (Table 08-2). -/
def mmaOpd (p : BitVec 22) : MmaOpd :=
  ⟨p.getLsbD 21, p.getLsbD 20, p.getLsbD 19, p.getLsbD 18, p.extractLsb' 14 4, p.extractLsb' 12 2, p.getLsbD 11⟩

/-- The fields of MCVT (Table 08-5). -/
def mcvtOpd (p : BitVec 22) : McvtOpd :=
  ⟨p.extractLsb' 18 4, p.extractLsb' 14 4, p.extractLsb' 11 3, p.getLsbD 10, p.extractLsb' 5 5, p.extractLsb' 3 2, p.getLsbD 2,
    p.getLsbD 1, p.getLsbD 0⟩

/-- MX (R228, R305). -/
def decMX (op : Nat) (p : BitVec 22) : Option Instr :=
  match op with
  | 1 => guard' (p.extractLsb' 0 11 == 0) (.mma (mmaOpd p))
  | 2 => guard' (p.extractLsb' 0 11 == 0) (.mmag (mmaOpd p))
  | 3 => guard' (p.extractLsb' 0 11 == 0 && p.extractLsb' 12 2 == 0 && p.extractLsb' 18 4 == 0)
      (.mzero (p.extractLsb' 14 4) (p.getLsbD 11))
  | 4 => some (.mcvt (mcvtOpd p))
  | _ => none

/-- The EI form with d reserved. -/
def decEi (p : BitVec 22) (i : R5 → BitVec 12 → Instr) : Option Instr := guard' (pD p == 0) (i (pA p) (pI p))

/-- RWAIT, RFREE and RADV: H in 3:0 and N8 in 11:4; the d field must be as given. -/
def decRing (p : BitVec 22) (d : R5) (i : R5 → BitVec 4 → BitVec 8 → Instr) : Option Instr :=
  guard' (pD p == d) (i (pA p) (p.extractLsb' 0 4) (p.extractLsb' 4 8))

/-- A transport operation with no operand register: d and b reserved, F bits 6:5 reserved (R310). -/
def decTx1 (p : BitVec 22) (i : R5 → BitVec 4 → Bool → Instr) : Option Instr :=
  guard' (pD p == 0 && pB p == 0 && p.extractLsb' 5 2 == 0) (i (pA p) (p.extractLsb' 0 4) (p.getLsbD 4))

/-- A transport operation with an operand register. -/
def decTx2 (p : BitVec 22) (i : R5 → R5 → BitVec 4 → Bool → Instr) : Option Instr :=
  guard' (pD p == 0 && p.extractLsb' 5 2 == 0) (i (pA p) (pB p) (p.extractLsb' 0 4) (p.getLsbD 4))

/-- TXFLUSH and TXFLUSH.P: F bits 4:0 reserved, bit 5 is P and bit 6 is ALL (R314). -/
def decFlush (p : BitVec 22) : Option Instr :=
  guard' (pD p == 0 && p.extractLsb' 0 5 == 0)
    (if p.getLsbD 5 then .txflushP (pA p) (pB p) (p.getLsbD 6) else .txflush (pA p) (pB p) (p.getLsbD 6))

/-- The E form with d and F reserved. -/
def decE2 (p : BitVec 22) (i : R5 → R5 → Instr) : Option Instr := guard' (pD p == 0 && pF p == 0) (i (pA p) (pB p))

/-- EN (Table 10-13). -/
def decEN (op : Nat) (p : BitVec 22) (x : BitVec 31) : Option Instr :=
  match op with
  | 1 => decEi p .ewr
  | 2 => guard' (pA p == 0) (.erd (pD p) (pI p))
  | 3 => guard' (pD p == 0 && pA p == 0 && p.extractLsb' 5 7 == 0) (.cpyq (p.extractLsb' 0 2) (p.extractLsb' 2 3))
  | 4 => guard' (pD p == 0 && p.extractLsb' 5 7 == 0) (.qfence (pA p) (p.extractLsb' 0 4) (p.getLsbD 4))
  | 5 => decRing p 0 .rwait
  | 6 => decRing p 0 .rfree
  | 7 => if pD p == 1 then decRing p 1 .radvC else decRing p 0 .radvP
  | 8 => guard' (pD p == 0 && pI p == 0) (.waitt (pA p))
  | 9 => decTx1 p .txput
  | 10 => decTx1 p .txget
  | 11 => decTx2 p .txred
  | 12 => decTx2 p .txmc
  | 13 => decFlush p
  | 14 => decTx2 p .rxpost
  | 15 => decTx1 p .chsend
  | 16 => decTx1 p .chrecv
  | 17 => guard' (pD p == 0) (.trig (pA p) (pB p) (p.extractLsb' 0 4) (p.extractLsb' 4 3))
  | 18 => guard' (pD p == 0 && p.extractLsb' 3 9 == 0) (.ctradd (pA p) (p.extractLsb' 0 3))
  | 19 => decE2 p .ctrsnap
  | 20 => guard' (p == 0) .ntr
  | 21 => guard' (pD p == 0 && pI p == 0) (.task (pA p))
  | 22 => decE2 p .taskDone
  | 23 => guard' (p.extractLsb' 3 19 == 0) (.sync (p.extractLsb' 0 3))
  | 24 => guard' (p.extractLsb' 4 18 == 0) (.phase (p.extractLsb' 0 4))
  | 25 => guard' (p.extractLsb' 9 13 == 0 && x.extractLsb' 16 15 == 0)
      (if p.getLsbD 8 then .stepbRp (p.extractLsb' 0 8) (x.extractLsb' 0 16)
       else .stepb (p.extractLsb' 0 8) (x.extractLsb' 0 16))
  | 26 => guard' (p.extractLsb' 8 14 == 0 && x.extractLsb' 16 15 == 0) (.stepe (p.extractLsb' 0 8) (x.extractLsb' 0 16))
  | 27 => guard' (p.extractLsb' 4 3 == 0) (.digest (pD p) (pA p) (pB p) (p.extractLsb' 0 2) (p.getLsbD 2) (p.getLsbD 3))
  | 28 => decE2 p .digcmp
  | 29 => decEi p .prof
  | 30 => guard' (p.extractLsb' 19 3 == 0) (.evpost (p.extractLsb' 17 2) (pA p) (pI p))
  | _ => none

/-- The file that an F bit names. -/
def fileOf (y : Bool) : SFile := if y then .y else .x

/-- LOOP: its count is an immediate or an x register with bits 14:10 reserved (Table 10-8). -/
def decLoop (p : BitVec 22) : Option Instr :=
  if p.getLsbD 20 then guard' (!p.getLsbD 21) (.loop (.imm (p.extractLsb' 10 10)) (p.extractLsb' 0 10))
  else guard' (!p.getLsbD 21 && p.extractLsb' 10 5 == 0) (.loop (.reg (p.extractLsb' 15 5)) (p.extractLsb' 0 10))

/-- BR (Table 10-14). -/
def decBR (op : Nat) (p : BitVec 22) (x : BitVec 31) : Option Instr :=
  match op with
  | 1 => guard' (p == 0) .nop
  | 2 => some (.bra (p.getLsbD 21) (p.extractLsb' 0 21))
  | 3 => some (.bz (p.getLsbD 21) (fileOf (p.getLsbD 20)) (p.extractLsb' 15 5) (p.extractLsb' 0 15))
  | 4 => some (.bnz (p.getLsbD 21) (fileOf (p.getLsbD 20)) (p.extractLsb' 15 5) (p.extractLsb' 0 15))
  | 5 => some (.bkall (p.getLsbD 21) (p.extractLsb' 18 3) (p.extractLsb' 0 18))
  | 6 => some (.bknone (p.getLsbD 21) (p.extractLsb' 18 3) (p.extractLsb' 0 18))
  | 7 => some (.call (p.getLsbD 21) (p.extractLsb' 0 21))
  | 8 => guard' (p.extractLsb' 0 21 == 0) (.ret (p.getLsbD 21))
  | 9 => decLoop p
  | 10 => guard' (!p.getLsbD 21) (.loopx x (p.extractLsb' 0 21))
  | 11 => guard' (p == 0) .halt
  | 12 => guard' (p.extractLsb' 16 6 == 0) (.trap (p.extractLsb' 0 16))
  | 13 => guard' (p.extractLsb' 0 21 == 0) (.rtt (p.getLsbD 21))
  | 14 => guard' (p.extractLsb' 16 6 == 0) (.brk (p.extractLsb' 0 16))
  | 15 => guard' (!p.getLsbD 21 && p.extractLsb' 0 16 == 0) (.waitev (p.extractLsb' 16 5))
  | 16 => guard' (p == 0) .yield
  | 17 => guard' (p.extractLsb' 2 20 == 0) (.prio (p.extractLsb' 0 2))
  | 18 => guard' (p == 0) .ifence
  | _ => none

/-- The slot of a lane, an opcode, bits 21:0 and an extension; none where it traps ILLEGAL on its fields. -/
def decodeSlot (lane op : Nat) (p : BitVec 22) (x : BitVec 31) : Option Instr :=
  match lane with
  | 0 => decScalar .x op p x
  | 1 => decScalar .y op p x
  | 2 => decVA op p x
  | 3 => decFM op p x
  | 4 => decLS op p
  | 5 => decMX op p
  | 6 => decEN op p x
  | _ => decBR op p x

/-! ## Bundles (R220) -/

/-- A slot of a bundle: its lane, its words, and its instruction where its fields are good. -/
structure SlotDec where
  lane  : Nat
  words : Nat
  instr : Option Instr
  deriving DecidableEq, Repr

/-- The slots of a list of words whose lanes are at or above a bound: none where R220 traps BUNDLE. -/
def decodeSlots : Nat → List W32 → Option (List SlotDec)
  | _, [] => some []
  | low, [w] =>
    if laneOf w < low || wideOp (laneOf w) (opOf w) then none
    else some [⟨laneOf w, 1, decodeSlot (laneOf w) (opOf w) (payOf w) 0⟩]
  | low, w :: x :: rest =>
    if laneOf w < low then none
    else if wideOp (laneOf w) (opOf w) then
      (decodeSlots (laneOf w + 1) rest).map fun l =>
        ⟨laneOf w, 2, decodeSlot (laneOf w) (opOf w) (payOf w) (x.extractLsb' 0 31)⟩ :: l
    else
      (decodeSlots (laneOf w + 1) (x :: rest)).map fun l =>
        ⟨laneOf w, 1, decodeSlot (laneOf w) (opOf w) (payOf w) 0⟩ :: l

/-- The words of a bundle: up to the first with bit 31 set, among at most 8 (R220). -/
def bundleOf : Nat → List W32 → Option (List W32)
  | 0, _ => none
  | _, [] => none
  | n + 1, w :: l => if stopOf w then some [w] else (bundleOf n l).map (w :: ·)

/-- A bundle of words: none where it traps BUNDLE. -/
def decodeBundle (ws : List W32) : Option (List SlotDec) :=
  match bundleOf 8 ws with
  | none => none
  | some l => decodeSlots 0 l

/-! ## Transport-core words (R166, R167) -/

/-- Bits 31:26 of a transport-core word. -/
def tOp (w : W32) : Nat := (w.extractLsb' 26 6).toNat
/-- Bits 25:21. -/
def tD (w : W32) : R5 := w.extractLsb' 21 5
/-- Bits 20:16. -/
def tA (w : W32) : R5 := w.extractLsb' 16 5
/-- Bits 15:11. -/
def tB (w : W32) : R5 := w.extractLsb' 11 5
/-- Bits 15:0. -/
def tI (w : W32) : BitVec 16 := w.extractLsb' 0 16

/-- Three registers, bits 10:0 reserved. -/
def decT3 (w : W32) (i : R5 → R5 → R5 → Instr) : Option Instr := guard' (w.extractLsb' 0 11 == 0) (i (tD w) (tA w) (tB w))
/-- Two registers and an immediate or offset. -/
def decT2 (w : W32) (i : R5 → R5 → BitVec 16 → Instr) : Option Instr := some (i (tD w) (tA w) (tI w))
/-- A shift by bits 5:0, bits 15:6 reserved. -/
def decTs (w : W32) (i : R5 → R5 → BitVec 6 → Instr) : Option Instr :=
  guard' (w.extractLsb' 6 10 == 0) (i (tD w) (tA w) (w.extractLsb' 0 6))
/-- A register and an immediate, bits 20:16 reserved. -/
def decT1 (w : W32) (i : R5 → BitVec 16 → Instr) : Option Instr := guard' (tA w == 0) (i (tD w) (tI w))
/-- A register and bit 0, bits 20:1 reserved. -/
def decTb (w : W32) (i : R5 → Bool → Instr) : Option Instr := guard' (w.extractLsb' 1 20 == 0) (i (tD w) (w.getLsbD 0))
/-- Registers in 20:16 and 15:11, the rest reserved. -/
def decTab (w : W32) (i : R5 → R5 → Instr) : Option Instr :=
  guard' (tD w == 0 && w.extractLsb' 0 11 == 0) (i (tA w) (tB w))

/-- A transport-core word: none where it faults ILLOP. -/
def decodeTc (w : W32) : Option Instr :=
  match tOp w with
  | 1 => decT3 w .tcAdd
  | 2 => decT3 w .tcSub
  | 3 => decT3 w .tcAnd
  | 4 => decT3 w .tcOr
  | 5 => decT3 w .tcXor
  | 6 => decT3 w .tcShl
  | 7 => decT3 w .tcShr
  | 8 => decT3 w .tcSltu
  | 16 => decT2 w .tcAddi
  | 17 => decT2 w .tcAndi
  | 18 => decTs w .tcShli
  | 19 => decTs w .tcShri
  | 20 => decT1 w .tcLi
  | 21 => decT1 w .tcLis
  | 24 => decT2 w .tcLds
  | 25 => decT2 w .tcSts
  | 26 => decT1 w .tcLde
  | 27 => decT1 w .tcLdp
  | 28 => decT1 w .tcStp
  | 32 => decT2 w .tcBeq
  | 33 => decT2 w .tcBne
  | 34 => decT2 w .tcBltu
  | 36 => some (.tcJmp (w.extractLsb' 0 26))
  | 37 => some (.tcCall (w.extractLsb' 0 26))
  | 38 => guard' (w.extractLsb' 0 26 == 0) .tcRet
  | 40 => guard' (w.extractLsb' 0 21 == 0) (.tcWaite (tD w))
  | 41 => decT3 w .tcResend
  | 42 => decTb w .tcAck
  | 43 => decTb w .tcNack
  | 44 => decTab w .tcSetpath
  | 45 => decTab w .tcPathdown
  | 46 => decTab w .tcSetwin
  | 47 => decTab w .tcTmarm
  | 48 => guard' (tI w == 0) (.tcTmcan (tD w) (tA w))
  | 49 => decT3 w .tcPost
  | 63 => guard' (w.extractLsb' 0 26 == 0) .tcHalt
  | _ => none

/-- The instruction that the decoder reads from a row of the table of operations: the rows with an encoding are those of the
transport core, one 32-bit word each. -/
def decodeTableWord (nbits w : Nat) : Option Instr := if nbits ≤ 32 then decodeTc (BitVec.ofNat 32 w) else none

/-! ## The encoder -/

/-- An encoded slot: lane, opcode, bits 21:0, and the extension of a wide slot. -/
structure SlotEnc where
  lane : BitVec 3
  op   : BitVec 6
  pay  : BitVec 22
  ext  : Option (BitVec 31)
  deriving DecidableEq, Repr

/-- Lane of a scalar file. -/
def laneBits : SFile → BitVec 3
  | .x => 0
  | .y => 1
/-- The F bit of a file. -/
def fBit : SFile → BitVec 1
  | .x => 0
  | .y => 1
/-- A flag as a bit. -/
def b1 (b : Bool) : BitVec 1 := BitVec.ofBool b

/-- Three registers and seven bits. -/
def payR (d a b : R5) (f : BitVec 7) : BitVec 22 := d ++ a ++ b ++ f
/-- Two registers and twelve bits. -/
def payI (d a : R5) (n : BitVec 12) : BitVec 22 := d ++ a ++ n
/-- An LS slot. -/
def payL (d : R5) (a : BitVec 4) (n : BitVec 13) : BitVec 22 := d ++ a ++ n
/-- A VA slot. -/
def payV (o : VOpd) : BitVec 22 := payR o.vd o.va o.vb (o.k ++ o.fmt)
/-- An FM slot. -/
def payF (o : FOpd) : BitVec 22 := payR o.vd o.va o.vb (o.sub ++ o.fmt)
/-- The extension of a wide twin. -/
def extR (r : Rnd) : BitVec 31 := r.rm ++ b1 r.sat ++ 0#3 ++ r.skey
/-- The LM sub-form. -/
def payLm (o : LmOpd) : BitVec 22 := payL o.d o.a (o.scope ++ o.ord ++ o.disp)
/-- The LA sub-form. -/
def payLa (o : LaOpd) : BitVec 22 := payL o.d o.a (o.scope ++ o.ord ++ o.s ++ b1 o.y ++ o.sz)
/-- The LB sub-form. -/
def payLb (o : LbOpd) : BitVec 22 := payL o.d o.a (o.space ++ b1 o.x ++ o.disp)
/-- MMA and MMAG. -/
def payMma (o : MmaOpd) : BitVec 22 := b1 o.p ++ b1 o.z ++ b1 o.w ++ b1 o.a ++ o.set ++ o.vc ++ b1 o.ef ++ 0#11
/-- MCVT. -/
def payMcvt (o : McvtOpd) : BitVec 22 :=
  o.dfmt ++ o.set ++ o.rm ++ b1 o.sat ++ o.sh ++ o.skind ++ b1 o.dmx ++ b1 o.ef ++ b1 o.dst
/-- Masks of R275. -/
def payK (kd ka kb : BitVec 3) : BitVec 22 := 0#2 ++ kd ++ 0#2 ++ ka ++ 0#2 ++ kb ++ 0#7

/-- A slot of one word. -/
def enc1 (lane : BitVec 3) (op : BitVec 6) (p : BitVec 22) : Option SlotEnc := some ⟨lane, op, p, none⟩
/-- A wide slot. -/
def enc2 (lane : BitVec 3) (op : BitVec 6) (p : BitVec 22) (x : BitVec 31) : Option SlotEnc := some ⟨lane, op, p, some x⟩
/-- A scalar instruction in its A form or its I form. -/
def encAI (f : SFile) (op iop : BitVec 6) (d a : R5) : SOpd → Option SlotEnc
  | .reg b => enc1 (laneBits f) op (payR d a b 0)
  | .imm n => enc1 (laneBits f) iop (payI d a n)
/-- A VA or FM instruction in its short form, or its wide twin. -/
def encW (lane : BitVec 3) (op : BitVec 6) (p : BitVec 22) : Option Rnd → Option SlotEnc
  | none => enc1 lane op p
  | some r => enc2 lane (op + 0x20#6) p (extR r)
/-- Lane of a CPY. -/
def cpyLane : CpyLane → BitVec 3
  | .sx => 0 | .sy => 1 | .va => 2 | .fm => 3 | .ls => 4
/-- Opcode offset of a load size. -/
def LdSz.op : LdSz → BitVec 6
  | .s8 => 1 | .z8 => 2 | .s16 => 3 | .z16 => 4 | .s32 => 5 | .z32 => 6 | .d64 => 7
/-- Opcode offset of a store size. -/
def StSz.op : StSz → BitVec 6
  | .b8 => 8 | .b16 => 9 | .b32 => 10 | .b64 => 11
/-- The row of a file in the LS map. -/
def rowOf : SFile → BitVec 6
  | .x => 0 | .y => 16
/-- F of a transport operation. -/
def payTx (a b : R5) (set : BitVec 4) (ne : Bool) : BitVec 22 := payR 0 a b (0#2 ++ b1 ne ++ set)

/-- The words of a slot, from the same tables; none for what is no slot. -/
def encodeSlot : Instr → Option SlotEnc
  | .add f d a b => encAI f 1 32 d a b
  | .sub f d a b => enc1 (laneBits f) 2 (payR d a b 0)
  | .mul f d a b => encAI f 3 33 d a b
  | .mulh f d a b => enc1 (laneBits f) 4 (payR d a b 0)
  | .mulhu f d a b => enc1 (laneBits f) 5 (payR d a b 0)
  | .div f d a b => enc1 (laneBits f) 6 (payR d a b 0)
  | .divu f d a b => enc1 (laneBits f) 7 (payR d a b 0)
  | .rem f d a b => enc1 (laneBits f) 8 (payR d a b 0)
  | .and f d a b => encAI f 9 34 d a b
  | .or f d a b => encAI f 10 35 d a b
  | .xor f d a b => encAI f 11 36 d a b
  | .shl f d a b => encAI f 12 37 d a b
  | .shr f d a b => encAI f 13 38 d a b
  | .sar f d a b => encAI f 14 39 d a b
  | .min f d a b => encAI f 15 40 d a b
  | .max f d a b => encAI f 16 41 d a b
  | .minu f d a b => encAI f 17 42 d a b
  | .maxu f d a b => encAI f 18 43 d a b
  | .seq f d a b => encAI f 19 44 d a b
  | .slt f d a b => encAI f 20 45 d a b
  | .sltu f d a b => encAI f 21 46 d a b
  | .sel f d a b c => enc1 (laneBits f) 22 (payR d a b (c ++ 0#2))
  | .clz f d a => enc1 (laneBits f) 23 (payI d a 0)
  | .popc f d a => enc1 (laneBits f) 24 (payI d a 0)
  | .bfx f d a pos len1 => enc1 (laneBits f) 25 (payI d a (pos ++ len1))
  | .bfi f d a pos len1 => enc1 (laneBits f) 26 (payI d a (pos ++ len1))
  | .addsh f d a b sh => enc1 (laneBits f) 27 (payR d a b (0#1 ++ sh))
  | .li f d h hi lo => enc2 (laneBits f) 48 (d ++ b1 h ++ hi) lo
  | .mfs f d sel => enc1 (laneBits f) 49 (payI d 0 sel)
  | .mts f a sel => enc1 (laneBits f) 50 (payI 0 a sel)
  | .cpy l d sf s piece dk => enc1 (cpyLane l) 62 (d ++ sf ++ s ++ piece ++ b1 dk ++ 0#3)
  | .vadd o w => encW 2 1 (payV o) w
  | .vsub o w => encW 2 2 (payV o) w
  | .vmul o w => encW 2 3 (payV o) w
  | .vfma o w => encW 2 4 (payV o) w
  | .vfms o w => encW 2 5 (payV o) w
  | .vexp2 o w => encW 2 6 (payV o) w
  | .vlog2 o w => encW 2 7 (payV o) w
  | .vrcp o w => encW 2 8 (payV o) w
  | .vrsq o w => encW 2 9 (payV o) w
  | .vcvt o w => encW 2 10 (payV o) w
  | .vreds o w => encW 2 11 (payV o) w
  | .vscan o w => encW 2 12 (payV o) w
  | .vmax o => enc1 2 16 (payV o)
  | .vmin o => enc1 2 17 (payV o)
  | .vabs o => enc1 2 18 (payV o)
  | .vneg o => enc1 2 19 (payV o)
  | .vcmp o => enc1 2 20 (payV o)
  | .vsel o => enc1 2 21 (payV o)
  | .vand o => enc1 2 22 (payV o)
  | .vor o => enc1 2 23 (payV o)
  | .vxor o => enc1 2 24 (payV o)
  | .vnot o => enc1 2 25 (payV o)
  | .vshl o => enc1 2 26 (payV o)
  | .vshr o => enc1 2 27 (payV o)
  | .vsar o => enc1 2 28 (payV o)
  | .vredm o => enc1 2 29 (payV o)
  | .vbcast o => enc1 2 30 (payV o)
  | .viota o => enc1 2 31 (payV o)
  | .vgauss o => enc1 2 48 (payV o)
  | .vrand o => enc1 2 49 (payV o)
  | .kand kd ka kb => enc1 2 50 (payK kd ka kb)
  | .kor kd ka kb => enc1 2 51 (payK kd ka kb)
  | .kxor kd ka kb => enc1 2 52 (payK kd ka kb)
  | .knot kd ka => enc1 2 53 (payK kd ka 0)
  | .kpop kd ka => enc1 2 54 (payK kd ka 0)
  | .pack o w => encW 3 1 (payF o) w
  | .vscale o w => encW 3 2 (payF o) w
  | .swjoin o w => encW 3 3 (payF o) w
  | .unpack o => enc1 3 16 (payF o)
  | .bscale o => enc1 3 17 (payF o)
  | .perm o => enc1 3 18 (payF o)
  | .zip o => enc1 3 19 (payF o)
  | .unzip o => enc1 3 20 (payF o)
  | .xpose o => enc1 3 21 (payF o)
  | .rnsenc o => enc1 3 22 (payF o)
  | .rnsdec o => enc1 3 23 (payF o)
  | .cpye o => enc1 3 24 (payF o)
  | .swsplit o => enc1 3 25 (payF o)
  | .ld f sz o => enc1 4 (rowOf f + sz.op) (payLm o)
  | .st f sz o => enc1 4 (rowOf f + sz.op) (payLm o)
  | .vld d a k disp => enc1 4 32 (payL d a (k ++ 0#2 ++ disp))
  | .vst d a k disp => enc1 4 33 (payL d a (k ++ 0#2 ++ disp))
  | .vlds d a k ix esz => enc1 4 34 (payL d a (k ++ 0#2 ++ ix ++ 0#1 ++ esz ++ 0#1))
  | .vsts d a k ix esz => enc1 4 35 (payL d a (k ++ 0#2 ++ ix ++ 0#1 ++ esz ++ 0#1))
  | .vgth d a k ix esz => enc1 4 36 (payL d a (k ++ 0#2 ++ ix ++ esz ++ 0#1))
  | .vsct d a k ix esz => enc1 4 37 (payL d a (k ++ 0#2 ++ ix ++ esz ++ 0#1))
  | .bld o => enc1 4 38 (payLb o)
  | .bst o => enc1 4 39 (payLb o)
  | .atadd o => enc1 4 40 (payLa o)
  | .atmin o => enc1 4 41 (payLa o)
  | .atmax o => enc1 4 42 (payLa o)
  | .atxch o => enc1 4 43 (payLa o)
  | .ator o => enc1 4 44 (payLa o)
  | .atand o => enc1 4 45 (payLa o)
  | .atcas o => enc1 4 46 (payLa o)
  | .atcas2 o => enc1 4 47 (payLa o)
  | .fence scope kind => enc1 4 48 (payL 0 0 (scope ++ kind ++ 0#8))
  | .cflush d a scope => enc1 4 49 (payL d a (scope ++ 0#10))
  | .cinv d a scope => enc1 4 50 (payL d a (scope ++ 0#10))
  | .pref a level disp => enc1 4 51 (payL 0 a (0#3 ++ level ++ disp))
  | .amov d a imm => enc1 4 52 (payL d a imm)
  | .ainc d a imm => enc1 4 53 (payL d a imm)
  | .caskAlloc d a n => enc1 4 54 (payL d a n)
  | .caskFree d a n => enc1 4 55 (payL d a n)
  | .setkp key right => enc1 4 56 (payL 0 0 (key ++ right ++ 0#6))
  | .mma o => enc1 5 1 (payMma o)
  | .mmag o => enc1 5 2 (payMma o)
  | .mzero set ef => enc1 5 3 (0#4 ++ set ++ 0#2 ++ b1 ef ++ 0#11)
  | .mcvt o => enc1 5 4 (payMcvt o)
  | .ewr a n => enc1 6 1 (payI 0 a n)
  | .erd d n => enc1 6 2 (payI d 0 n)
  | .cpyq q n => enc1 6 3 (payI 0 0 (0#7 ++ n ++ q))
  | .qfence a mask evt => enc1 6 4 (payI 0 a (0#7 ++ b1 evt ++ mask))
  | .rwait a h n8 => enc1 6 5 (payI 0 a (n8 ++ h))
  | .rfree a h n8 => enc1 6 6 (payI 0 a (n8 ++ h))
  | .radvP a h n8 => enc1 6 7 (payI 0 a (n8 ++ h))
  | .radvC a h n8 => enc1 6 7 (payI 1 a (n8 ++ h))
  | .waitt a => enc1 6 8 (payI 0 a 0)
  | .txput a set ne => enc1 6 9 (payTx a 0 set ne)
  | .txget a set ne => enc1 6 10 (payTx a 0 set ne)
  | .txred a b set ne => enc1 6 11 (payTx a b set ne)
  | .txmc a b set ne => enc1 6 12 (payTx a b set ne)
  | .txflush a b all => enc1 6 13 (payR 0 a b (b1 all ++ 0#6))
  | .txflushP a b all => enc1 6 13 (payR 0 a b (b1 all ++ 1#1 ++ 0#5))
  | .rxpost a b set ne => enc1 6 14 (payTx a b set ne)
  | .chsend a set ne => enc1 6 15 (payTx a 0 set ne)
  | .chrecv a set ne => enc1 6 16 (payTx a 0 set ne)
  | .trig a b set opk => enc1 6 17 (payR 0 a b (opk ++ set))
  | .ctradd a c => enc1 6 18 (payI 0 a (0#9 ++ c))
  | .ctrsnap a b => enc1 6 19 (payR 0 a b 0)
  | .ntr => enc1 6 20 0
  | .task a => enc1 6 21 (payI 0 a 0)
  | .taskDone a b => enc1 6 22 (payR 0 a b 0)
  | .sync level => enc1 6 23 (0#19 ++ level)
  | .phase p => enc1 6 24 (0#18 ++ p)
  | .stepb b tag => enc2 6 25 (0#14 ++ b) (0#15 ++ tag)
  | .stepbRp b tag => enc2 6 25 (0#13 ++ 1#1 ++ b) (0#15 ++ tag)
  | .stepe b tag => enc2 6 26 (0#14 ++ b) (0#15 ++ tag)
  | .digest d a b q evt buf => enc1 6 27 (payR d a b (0#3 ++ b1 buf ++ b1 evt ++ q))
  | .digcmp a b => enc1 6 28 (payR 0 a b 0)
  | .prof a n => enc1 6 29 (payI 0 a n)
  | .evpost c a tag => enc1 6 30 (payI (0#3 ++ c) a tag)
  | .nop => enc1 7 1 0
  | .bra dr off => enc1 7 2 (b1 dr ++ off)
  | .bz dr f r off => enc1 7 3 (b1 dr ++ fBit f ++ r ++ off)
  | .bnz dr f r off => enc1 7 4 (b1 dr ++ fBit f ++ r ++ off)
  | .bkall dr k off => enc1 7 5 (b1 dr ++ k ++ off)
  | .bknone dr k off => enc1 7 6 (b1 dr ++ k ++ off)
  | .call dr off => enc1 7 7 (b1 dr ++ off)
  | .ret dr => enc1 7 8 (b1 dr ++ 0#21)
  | .loop (.imm n) stop => enc1 7 9 (0#1 ++ 1#1 ++ n ++ stop)
  | .loop (.reg r) stop => enc1 7 9 (0#1 ++ 0#1 ++ r ++ 0#5 ++ stop)
  | .loopx count stop => enc2 7 10 (0#1 ++ stop) count
  | .halt => enc1 7 11 0
  | .trap code => enc1 7 12 (0#6 ++ code)
  | .rtt dr => enc1 7 13 (b1 dr ++ 0#21)
  | .brk code => enc1 7 14 (0#6 ++ code)
  | .waitev r => enc1 7 15 (0#1 ++ r ++ 0#16)
  | .yield => enc1 7 16 0
  | .prio c => enc1 7 17 (0#20 ++ c)
  | .ifence => enc1 7 18 0
  | _ => none

/-- A transport-core word of an opcode and 26 bits. -/
def encT (op : BitVec 6) (p : BitVec 26) : Option W32 := some (op ++ p)

/-- The word of a transport-core instruction; none for what is none. -/
def encodeTc : Instr → Option W32
  | .tcAdd d a b => encT 1 (d ++ a ++ b ++ 0#11)
  | .tcSub d a b => encT 2 (d ++ a ++ b ++ 0#11)
  | .tcAnd d a b => encT 3 (d ++ a ++ b ++ 0#11)
  | .tcOr d a b => encT 4 (d ++ a ++ b ++ 0#11)
  | .tcXor d a b => encT 5 (d ++ a ++ b ++ 0#11)
  | .tcShl d a b => encT 6 (d ++ a ++ b ++ 0#11)
  | .tcShr d a b => encT 7 (d ++ a ++ b ++ 0#11)
  | .tcSltu d a b => encT 8 (d ++ a ++ b ++ 0#11)
  | .tcAddi d a imm => encT 16 (d ++ a ++ imm)
  | .tcAndi d a imm => encT 17 (d ++ a ++ imm)
  | .tcShli d a sh => encT 18 (d ++ a ++ 0#10 ++ sh)
  | .tcShri d a sh => encT 19 (d ++ a ++ 0#10 ++ sh)
  | .tcLi d imm => encT 20 (d ++ 0#5 ++ imm)
  | .tcLis d imm => encT 21 (d ++ 0#5 ++ imm)
  | .tcLds d a imm => encT 24 (d ++ a ++ imm)
  | .tcSts d a imm => encT 25 (d ++ a ++ imm)
  | .tcLde d imm => encT 26 (d ++ 0#5 ++ imm)
  | .tcLdp d imm => encT 27 (d ++ 0#5 ++ imm)
  | .tcStp d imm => encT 28 (d ++ 0#5 ++ imm)
  | .tcBeq d a imm => encT 32 (d ++ a ++ imm)
  | .tcBne d a imm => encT 33 (d ++ a ++ imm)
  | .tcBltu d a imm => encT 34 (d ++ a ++ imm)
  | .tcJmp off => encT 36 (off)
  | .tcCall off => encT 37 (off)
  | .tcRet => encT 38 (0)
  | .tcWaite d => encT 40 (d ++ 0#21)
  | .tcResend d a b => encT 41 (d ++ a ++ b ++ 0#11)
  | .tcAck d b => encT 42 (d ++ 0#20 ++ b1 b)
  | .tcNack d b => encT 43 (d ++ 0#20 ++ b1 b)
  | .tcSetpath a b => encT 44 (0#5 ++ a ++ b ++ 0#11)
  | .tcPathdown a b => encT 45 (0#5 ++ a ++ b ++ 0#11)
  | .tcSetwin a b => encT 46 (0#5 ++ a ++ b ++ 0#11)
  | .tcTmarm a b => encT 47 (0#5 ++ a ++ b ++ 0#11)
  | .tcTmcan d a => encT 48 (d ++ a ++ 0#16)
  | .tcPost d a b => encT 49 (d ++ a ++ b ++ 0#11)
  | .tcHalt => encT 63 (0)
  | _ => none

/-- The words of a slot standing alone in its bundle: STOP in its last word (R219, R220). -/
def SlotEnc.words (e : SlotEnc) : List W32 :=
  match e.ext with
  | none => [1#1 ++ e.lane ++ e.op ++ e.pay]
  | some x => [0#1 ++ e.lane ++ e.op ++ e.pay, 1#1 ++ x]

/-- The words of an instruction: the one-slot bundle of a slot, the word of a transport-core instruction; an event has none. -/
def encode (i : Instr) : List W32 :=
  match encodeSlot i with
  | some e => e.words
  | none => match encodeTc i with
    | some w => [w]
    | none => []

end Sys2Proof
end

