-- ==== Sys2Proof/Machine/LoadStore.lean ====
section
/-! DEFINITION. The LS lane: loads and stores, vector and buffer accesses, atomics, fences, cache operations, address
registers, cask lines and keys (R76 to R83, R290 to R304). -/

namespace Sys2Proof.Machine

open Sys2Proof

/-! ## What the slots share -/

/-- An LS slot from its verdict at issue and its effect. -/
def slotMem (ill : Bool) (reads writes : List (RFile × Nat)) (sb : Bool) (v : At → State → Verdict)
    (eff : At → State → State → State) : SlotSem :=
  { lane := 4, ill := ill, reads := reads, writes := writes, sb := sb
    wait := fun w s => match v w s with
      | .hold r f => some (r, f)
      | _ => none
    trap5 := fun w s => match v w s with
      | .trap t => some t
      | _ => none
    effect := eff }

/-- The trap of the first misaligned element (R291). -/
def alignVerdict (acc : Nat) (n : Nat) (vas : List W64) : Verdict :=
  match vas.find? fun a => a.toNat % n != 0 with
  | some a => .trap (trapAt 8 acc 0 4 a)
  | none => .go

/-- An acquire that is not performed yet holds every later access (R293, R333). -/
def State.acqWait (s : State) (w : At) : Verdict := stallIf (s.acqBusy w)

/-- A release waits for every global access that is not answered and every cache operation that is not complete; where it cannot
be held behind them, for the context's lees entries and held releases too (R69, R79, R149, R334). -/
def State.relWait (s : State) (w : At) (lees : Bool) : Verdict :=
  let t := (s.ctx w).tridN
  stallIf (s.globalOpen w false || s.cacheBusy t || (lees && (s.hasLees w || s.hasHeld t)))

/-- Puts a scoreboarded result in flight (R233). -/
def State.scoreboard (s : State) (w : At) (e : SbEnt) : State :=
  if deadReg e.file e.reg then s else s.updPipe w fun p => { p with sb := p.sb ++ [e] }

/-- A scoreboarded result that is at hand. -/
def sbNow (f : RFile) (n : Nat) (mask value : VReg) : SbEnt :=
  { file := f, reg := n, mask := mask, value := value, acc := 0, lo := 0, ready := true, sx := false }

/-- The LM address (R290). -/
def lmAddr (r : Regs) (o : LmOpd) (n : Nat) : W64 := r.getA o.a.toNat + o.disp.signExtend 64 * BitVec.ofNat 64 n

/-- Bytes and sign of a load. -/
def LdSz' : LdSz → Nat × Bool
  | .s8 => (1, true) | .z8 => (1, false) | .s16 => (2, true) | .z16 => (2, false) | .s32 => (4, true)
  | .z32 => (4, false) | .d64 => (8, false)

/-- Bytes of a store. -/
def StSz' : StSz → Nat
  | .b8 => 1 | .b16 => 2 | .b32 => 4 | .b64 => 8

/-- The register value of n loaded bytes (R292). -/
def loadValue (n : Nat) (sx : Bool) (bs : List Byte) : W64 :=
  if sx then BitVec.ofInt 64 (sextNat (ofBytes bs) (8 * n)) else BitVec.ofNat 64 (ofBytes bs)

/-! ## LD and ST (R292, R293) -/

/-- LD. -/
def slotLd (f : SFile) (sz : LdSz) (o : LmOpd) : SlotSem :=
  let n := (LdSz' sz).1
  let acq := o.ord == 1
  let el := fun (w : At) (s : State) => (⟨lmAddr (s.ctx w).regs o n, n, [], 0⟩ : Elem)
  slotMem (5 < o.scope.toNat || 2 ≤ o.ord.toNat || (o.ord == 0 && o.scope != 0)) [(.a, o.a.toNat)]
    [(sfile f, o.d.toNat)] true
    (fun w s => firstVerdict [if acq then alignVerdict 1 n [(el w s).va] else .go, s.acqWait w,
      s.loadVerdict w (s.ctx w) 1 4 0 false .load acq o.scope.toNat (el w s)])
    (fun w p s =>
      let c := p.ctx w
      let e := el w p
      if isGlobal e.va then
        let s' := s.sendGlobal w c { bundle := c.pipe.pc, va := e.va, op := 3, w2 := BitVec.ofNat 64 n, load := true,
                                     acq := acq, sync := acq, n := n }
        s'.scoreboard w { file := sfile f, reg := o.d.toNat, mask := wholeMask, value := 0, acc := s.accId, lo := 0,
                          ready := false, sx := (LdSz' sz).2 }
      else
        let r := s.loadElem w c .load acq o.scope.toNat e
        r.2.scoreboard w (sbNow (sfile f) o.d.toNat wholeMask ((loadValue n (LdSz' sz).2 r.1).setWidth 2048)))

/-- Whether some part of a store lies on an SO page, and is so a release (R329); one whose page is absent waits when it replays. -/
def State.storeIsSO (s : State) (w : At) (c : Ctx) (es : List Elem) : Bool :=
  es.any fun e => !isGlobal e.va && (s.parts w c e.va e.n .store).any fun p => match p.2.2 with
    | .ok x => x.okind == 0
    | .error _ => false

/-- The verdict on a store, a release with `rel`. One to an SO page is a release; it stands behind lees entries in the log, and
waits for a release of its context that is held without any (R329). -/
def State.plainStore (s : State) (w : At) (acc : Nat) (rel : Bool) (scope : Nat) (es : List Elem) : Verdict :=
  let c := s.ctx w
  firstVerdict [s.acqWait w, s.storeVerdict w c acc 4 es, s.storeWait w c .store rel rel scope es,
    if s.storeIsSO w c es then s.relWait w (!(s.hasLees w)) else .go]

/-- Performs the local part of a release store or of a reduction (R69, R293, R298): logged when it faults or stands behind
the log, else performed, or held at its home slice when it is a release. -/
def State.syncWrite (s : State) (w : At) (c : Ctx) (bundle va : W64) (rel acq : Bool) (scope : Nat) (bs : List Byte)
    (at' : Option (LeesOp × Nat)) : State :=
  let acc := if at'.isSome then 4 else 2
  let op := (at'.map (·.1)).getD .store
  let need : Need := if at'.isSome then .rmw else .store
  let e := { leesFor w c bundle with op := op, size := bs.length, scope := scope, rel := rel, acq := acq }
  match s.xlate w c.asid (c.extentFor va.toNat bs.length) va need c.sys.kperm with
  | .error _ => (s.logPart w e va bs).pageRequest (dieOf w.core) c.asid va 1
  | .ok x =>
    if s.hostLinkBad w x va bs.length true then s.addDeferred w (trapDeferred 22 acc 0 va false (some bundle))
    else if at'.isSome && (isDevFrame x.pa || s.noAtomicOp x op.code) then
      (s.logPart w { e with failed := true } va bs).addDeferred w { trapDeferred 6 acc 5 (blockVa va) false none with lane := some 4 }
    else if s.logsBehind w c x va bs.length then s.logPart w { e with ready := true } va bs
    else
      let s := if (c.extentFor va.toNat bs.length).isNone then s.coreFill w.core c.asid va.toNat else s
      let o := ordOf x true scope at'.isSome
      if rel then s.releaseWrite w c bundle va x scope bs at'
      else if !(s.scopeOk (clusterOf w.core) x o.wide (domOf w o.scope)) then
        s.addDeferred w (trapDeferred 9 acc 0 va false (some bundle))
      else match at' with
        | some (op, n) => (s.performAtomic w x o c.asid op.code n (ofBytes bs) 0).2
        | none => s.performWrite w x o c.asid (bs.zipIdx.map fun p => (p.2, p.1))

/-- ST. -/
def slotSt (f : SFile) (sz : StSz) (o : LmOpd) : SlotSem :=
  let n := StSz' sz
  let rel := o.ord == 2
  let el := fun (w : At) (s : State) =>
    let r := (s.ctx w).regs
    (⟨lmAddr r o n, n, toBytes n (r.getS f o.d).toNat, 0⟩ : Elem)
  slotMem (5 < o.scope.toNat || o.ord == 1 || o.ord == 3 || (o.ord == 0 && o.scope != 0))
    [(.a, o.a.toNat), (sfile f, o.d.toNat)] [] false
    (fun w s =>
      let e := el w s
      firstVerdict [if rel then alignVerdict 2 n [e.va] else .go, devAlign w s e,
        s.plainStore w 2 rel o.scope.toNat [e], if rel then s.relWait w (isGlobal e.va) else .go])
    (fun w p s =>
      let c := p.ctx w
      let e := el w p
      if rel && !isGlobal e.va then s.syncWrite w c c.pipe.pc e.va true false o.scope.toNat e.data none
      else s.storeAll w c (leesFor w c c.pipe.pc) rel true [e])
where
  /-- A store to a device frame is naturally aligned (R291). -/
  devAlign (w : At) (s : State) (e : Elem) : Verdict :=
    if isGlobal e.va then .go
    else if (s.parts w (s.ctx w) e.va e.n .store).any (fun p => match p.2.2 with
      | .ok x => isDevFrame x.pa
      | .error _ => false) then alignVerdict 2 e.n [e.va] else .go

/-! ## Vector loads and stores (R294, R295) -/

/-- Active elements of a vector access: their addresses, sizes, data from a register, and places. -/
def vecElems (l : List (Nat × W64)) (wid : Nat) (v : VReg) : List Elem :=
  l.map fun p => ⟨p.2, wid / 8, toBytes (wid / 8) (elem v wid p.1), wid * p.1⟩

/-- The bits of a register that elements fill. -/
def elemsMask (es : List Elem) : VReg :=
  es.foldl (fun m e => m ||| BitVec.ofNat 2048 ((2 ^ (8 * e.n) - 1) <<< e.lo)) 0

/-- A vector load slot. -/
def slotVecLoad (d : R5) (reads : List (RFile × Nat)) (n : Nat) (els : Regs → List Elem) : SlotSem :=
  slotMem false reads [(.v, d.toNat)] true
    (fun w s =>
      let c := s.ctx w
      let es := els c.regs
      firstVerdict ([alignVerdict 1 n (es.map (·.va)), s.acqWait w] ++
        es.map (s.loadVerdict w c 1 4 0 true .load false 0)))
    (fun w p s =>
      let c := p.ctx w
      let es := els c.regs
      let loc := es.filter fun e => !isGlobal e.va
      let r := loc.foldl (fun (q : VReg × State) e =>
        let x := q.2.loadElem w c .load false 0 e
        (q.1 ||| (BitVec.ofNat 2048 (ofBytes x.1) <<< e.lo), x.2)) (0, s)
      let s := r.2.scoreboard w (sbNow .v d.toNat (elemsMask loc) r.1)
      (es.filter fun e => isGlobal e.va).foldl (fun s e =>
        let s' := s.sendGlobal w c { bundle := c.pipe.pc, va := e.va, op := 3, w2 := BitVec.ofNat 64 e.n, load := true,
                                     n := e.n }
        s'.scoreboard w { file := .v, reg := d.toNat, mask := elemsMask [e], value := 0, acc := s.accId, lo := e.lo,
                          ready := false, sx := false }) s)

/-- Whether an access touches more than 64 blocks, and is so translated before it retires (R67). -/
def manyBlocks (es : List Elem) : Bool := 64 < (blocksOfAll es).length

/-- A vector store slot. -/
def slotVecStore (d : R5) (reads : List (RFile × Nat)) (n : Nat) (els : Regs → List Elem) : SlotSem :=
  slotMem false ((.v, d.toNat) :: reads) [] false
    (fun w s =>
      let c := s.ctx w
      let es := els c.regs
      let al := alignVerdict 2 n (es.map (·.va))
      if manyBlocks es then
        let busy := es.any fun e => (s.core w.core).lees.any fun l => l.overlaps c.asid e.va e.n
        firstVerdict ([al, s.acqWait w, stallIf busy] ++
          es.map (s.loadVerdict w c 2 4 1 true .store false 0))
      else firstVerdict [al, s.plainStore w 2 false 0 es])
    (fun w p s =>
      let c := p.ctx w
      let es := els c.regs
      s.storeAll w c { leesFor w c c.pipe.pc with vec := true, size := n } false (!(manyBlocks es)) es)

/-- The LV address (R290). -/
def lvAddr (r : Regs) (a : BitVec 4) (disp : BitVec 8) : W64 := r.getA a.toNat + disp.signExtend 64 * 256#64

/-- The elements of VLD and VST: 4 bytes each, at rising addresses. -/
def lvElems (r : Regs) (d : R5) (a : BitVec 4) (k : BitVec 3) (disp : BitVec 8) : List Elem :=
  vecElems (strideElems (lvAddr r a disp) 4 32 (r.getK k.toNat)) 32 (r.getV d.toNat)

/-- VLD. -/
def slotVld (d : R5) (a : BitVec 4) (k : BitVec 3) (disp : BitVec 8) : SlotSem :=
  slotVecLoad d [(.a, a.toNat), (.k, k.toNat)] 4 fun r => lvElems r d a k disp
/-- VST. -/
def slotVst (d : R5) (a : BitVec 4) (k : BitVec 3) (disp : BitVec 8) : SlotSem :=
  slotVecStore d [(.a, a.toNat), (.k, k.toNat)] 4 fun r => lvElems r d a k disp

/-- The elements of VLDS and VSTS. -/
def ldsElems (r : Regs) (d : R5) (a : BitVec 4) (k : BitVec 3) (ix : BitVec 4) (esz : BitVec 2) : List Elem :=
  vecElems (strideElems (r.getA a.toNat) (r.getA ix.toNat) (eszWidth esz) (r.getK k.toNat)) (eszWidth esz) (r.getV d.toNat)

/-- VLDS. -/
def slotVlds (d : R5) (a : BitVec 4) (k : BitVec 3) (ix : BitVec 4) (esz : BitVec 2) : SlotSem :=
  slotVecLoad d [(.a, a.toNat), (.a, ix.toNat), (.k, k.toNat)] (eszWidth esz / 8) fun r => ldsElems r d a k ix esz
/-- VSTS. -/
def slotVsts (d : R5) (a : BitVec 4) (k : BitVec 3) (ix : BitVec 4) (esz : BitVec 2) : SlotSem :=
  slotVecStore d [(.a, a.toNat), (.a, ix.toNat), (.k, k.toNat)] (eszWidth esz / 8) fun r => ldsElems r d a k ix esz

/-- The elements of VGTH and VSCT. -/
def gthElems (r : Regs) (d : R5) (a : BitVec 4) (k : BitVec 3) (ix : R5) (esz : BitVec 2) : List Elem :=
  vecElems (indexElems (r.getA a.toNat) (r.getV ix.toNat) (eszWidth esz) (r.getK k.toNat)) (eszWidth esz) (r.getV d.toNat)

/-- VGTH. -/
def slotVgth (d : R5) (a : BitVec 4) (k : BitVec 3) (ix : R5) (esz : BitVec 2) : SlotSem :=
  slotVecLoad d [(.a, a.toNat), (.v, ix.toNat), (.k, k.toNat)] (eszWidth esz / 8) fun r => gthElems r d a k ix esz
/-- VSCT. -/
def slotVsct (d : R5) (a : BitVec 4) (k : BitVec 3) (ix : R5) (esz : BitVec 2) : SlotSem :=
  slotVecStore d [(.a, a.toNat), (.v, ix.toNat), (.k, k.toNat)] (eszWidth esz / 8) fun r => gthElems r d a k ix esz

/-! ## BLD and BST (R94, R95, R189, R291, R296) -/

/-- Bytes of a buffer access. -/
def lbSize (o : LbOpd) : Nat := if o.x then 8 else 256

/-- The buffer address of an LB slot. -/
def lbWord (r : Regs) (o : LbOpd) : W64 × Bool := lbAddr o.space (r.getA o.a.toNat) o.disp (lbSize o)

/-- The verdict on a buffer access: the stall of R95, then range, alignment, WINDOW and the phase sets. -/
def State.lbVerdict (s : State) (w : At) (o : LbOpd) (write : Bool) : Verdict :=
  let q := lbWord (s.ctx w).regs o
  let a := q.1
  let n := lbSize o
  let core := bufCore (clusterOf w.core) a
  let space := bufSpace a
  let k := s.core core
  firstVerdict [s.acqWait w, stallIf (k.pressReads space (bufOff a) n s.cycle),
    if !(q.2 && bufInRange a n) then .trap (trapAt 6 6 5 4 a)
    else if bufOff a % (if o.x then 8 else 32) != 0 then .trap (trapAt 8 6 0 4 a)
    else match (if space = 2 then k.pendingByte (bufOff a) n else none) with
    | some b => .trap (trapAt 12 6 0 4 (bufWord 2 core b))
    | none => match s.phaseTrap w 4 6 0 write space core (bufOff a) n with
      | some t => .trap t
      | none => .go]

/-- BLD: latency 4. -/
def slotBld (o : LbOpd) : SlotSem :=
  { slotMem false [(.a, o.a.toNat)] [(if o.x then .x else .v, o.d.toNat)] false (fun w s => s.lbVerdict w o false)
      (fun w p s => (s.bufRead (clusterOf w.core) (p.ctx w).asid (lbWord (p.ctx w).regs o).1 (lbSize o)).2) with
    results := fun w s =>
      let c := s.ctx w
      let v := ofBytes (s.bufRead (clusterOf w.core) c.asid (lbWord c.regs o).1 (lbSize o)).1
      [⟨if o.x then .x else .v, o.d.toNat, wholeMask, BitVec.ofNat 2048 v, 4⟩] }

/-- BST. -/
def slotBst (o : LbOpd) : SlotSem :=
  slotMem false [(.a, o.a.toNat), (if o.x then .x else .v, o.d.toNat)] [] false (fun w s => s.lbVerdict w o true)
    (fun w p s =>
      let c := p.ctx w
      let bs := if o.x then toBytes 8 (c.regs.getX o.d.toNat).toNat else toBytes 256 (c.regs.getV o.d.toNat).toNat
      s.bufWrite (clusterOf w.core) c.asid (lbWord c.regs o).1 bs)

/-! ## Atomics (R297, R298) -/

/-- The scalar file of an LA slot. -/
def laFile (o : LaOpd) : SFile := if o.y then .y else .x

/-- An atomic slot: operation code of R465, and whether it compares. -/
def slotAtomic (op : Nat) (o : LaOpd) : SlotSem :=
  let cas := 6 ≤ op
  let cas2 := op == 7
  let f := laFile o
  let rf := sfile f
  let n := if cas2 then 16 else if o.sz == 0 then 4 else 8
  let live := o.d != 0
  let acc := if live then 3 else 4
  let rel := o.ord == 2
  let acq := o.ord == 1
  let ill := 5 < o.scope.toNat || o.ord == 3 || (cas && o.d == 0) ||
    (if cas2 then o.y || o.sz != 0 || o.d.toNat % 2 == 1 || o.s.toNat % 2 == 1 else 2 ≤ o.sz.toNat)
  let val := fun (r : Regs) (i : R5) => if cas2 then (r.getX i.toNat).toNat + (r.getX (i.toNat + 1)).toNat * 2 ^ 64
    else (r.getS f i).toNat % 2 ^ (8 * n)
  let dst : List (RFile × Nat) := if cas2 then [(rf, o.d.toNat), (rf, o.d.toNat + 1)] else [(rf, o.d.toNat)]
  let src : List (RFile × Nat) := if cas2 then [(rf, o.s.toNat), (rf, o.s.toNat + 1)] else [(rf, o.s.toNat)]
  slotMem ill ([(.a, o.a.toNat)] ++ src ++ (if cas then dst else [])) (if live then dst else []) live
    (fun w s =>
      let c := s.ctx w
      let e : Elem := ⟨c.regs.getA o.a.toNat, n, [], 0⟩
      let relw := if rel then s.relWait w (live || isGlobal e.va) else .go
      firstVerdict [alignVerdict acc n [e.va], s.acqWait w, relw,
        if live then firstVerdict [s.loadVerdict w c acc 4 1 true .rmw true o.scope.toNat e, hostVerdict s w c e.va n acc]
        else firstVerdict [s.storeVerdict w c acc 4 [e], s.storeWait w c .rmw rel true o.scope.toNat [e]]])
    (fun w p s =>
      let c := p.ctx w
      let va := c.regs.getA o.a.toNat
      let sv := val c.regs o.s
      let cv := val c.regs o.d
      let put := fun (s : State) (acc m : Nat) (ready : Bool) =>
        dst.zipIdx.foldl (fun s (r : (RFile × Nat) × Nat) =>
          s.scoreboard w { file := r.1.1, reg := r.1.2, mask := wholeMask,
                           value := BitVec.ofNat 2048 (m / 2 ^ (64 * r.2) % 2 ^ 64), acc := acc, lo := 64 * r.2,
                           ready := ready, sx := false }) s
      if isGlobal va then
        let asz := if n = 4 then 0 else if n = 8 then 1 else 2
        let pay := if cas then toBytes n cv ++ toBytes n sv else []
        let g : GReq := { bundle := c.pipe.pc, va := va, op := 5, fmt := op, asz := asz,
                          w2 := if cas then 0 else BitVec.ofNat 64 sv, payload := pay, load := live, acq := acq, sync := true,
                          n := n, grp := if live then none else some s.accId }
        if live then put (s.sendGlobal w c g) s.accId 0 false
        else if (s.core w.core).lees.any fun x => x.overlaps c.asid va n then
          s.logPart w { leesFor w c c.pipe.pc with
            op := leesOpOf op, size := n, scope := 4, rel := rel, acq := acq, remote := true, ready := true } va (toBytes n sv)
        else s.sendGlobal w c g
      else if live then
        match s.xlate w c.asid (c.extentFor va.toNat n) va .rmw c.sys.kperm with
        | .error _ => s
        | .ok x =>
          let s := if (c.extentFor va.toNat n).isNone then s.coreFill w.core c.asid va.toNat else s
          let r := s.performAtomic w x (ordOf x true o.scope.toNat true) c.asid op n sv cv
          put r.2 0 r.1 true
      else s.syncWrite w c c.pipe.pc va rel acq o.scope.toNat (toBytes n sv) (some (leesOpOf op, n)))
where
  /-- A live atomic that the host path has no AtomicOp for (R392). -/
  hostVerdict (s : State) (w : At) (c : Ctx) (va : W64) (n acc : Nat) : Verdict :=
    if isGlobal va then .go
    else match s.xlate w c.asid (c.extentFor va.toNat n) va .rmw c.sys.kperm with
      | .ok x => if s.noAtomicOp x op then .trap (trapAt 6 acc 5 4 va) else .go
      | .error _ => .go

/-- ATADD. -/
def slotAtadd (o : LaOpd) : SlotSem := slotAtomic 0 o
/-- ATMIN. -/
def slotAtmin (o : LaOpd) : SlotSem := slotAtomic 1 o
/-- ATMAX. -/
def slotAtmax (o : LaOpd) : SlotSem := slotAtomic 2 o
/-- ATXCH. -/
def slotAtxch (o : LaOpd) : SlotSem := slotAtomic 3 o
/-- ATOR. -/
def slotAtor (o : LaOpd) : SlotSem := slotAtomic 4 o
/-- ATAND. -/
def slotAtand (o : LaOpd) : SlotSem := slotAtomic 5 o
/-- ATCAS. -/
def slotAtcas (o : LaOpd) : SlotSem := slotAtomic 6 o
/-- ATCAS2. -/
def slotAtcas2 (o : LaOpd) : SlotSem := slotAtomic 7 o

/-! ## Fences and cache operations (R76 to R79, R299 to R301) -/

/-- FENCE: an acquire fence waits for the context's global loads, a release or full fence for its lees entries, its held
releases and every global access; each for an acquire that is not performed and for its cache operations (R69, R79, R299, R333). -/
def slotFence (scope : BitVec 3) (kind : BitVec 2) : SlotSem :=
  slotMem (5 < scope.toNat || kind == 3) [] [] false
    (fun w s =>
      let loads := (s.die (dieOf w.core)).tx.flows.any fun f => f.2.accs.any fun a =>
        a.core == w.core && a.ctx == w.ctx && a.load
      let open' := s.soBusy w (s.ctx w)
      firstVerdict [s.acqWait w, stallIf (s.cacheBusy (s.ctx w).tridN || if kind == 1 then loads else open')])
    (fun _ _ s => s)

/-- The virtual lines of a length from an address, stopping at 2⁶⁴ − 1 (R300). -/
def lineRange (va : W64) (len : Nat) : List W64 :=
  if len = 0 then []
  else
    let last := min (va.toNat + len - 1) (2 ^ 64 - 1)
    (List.range (last / 128 - va.toNat / 128 + 1)).map fun i => BitVec.ofNat 64 ((va.toNat / 128 + i) * 128)

/-- CFLUSH or CINV of a range (R76, R77, R300). A line at which a release of the context is held is treated once that is
performed (R79), and one whose dirty bytes go to a page in host bias once its snoop or flip is answered (R387). -/
def State.flushRange (s : State) (w : At) (c : Ctx) (va : W64) (len scope : Nat) (inv : Bool) : State :=
  (lineRange va len).foldl (fun s a =>
    if isGlobal a then s
    else match s.xlate w c.asid (c.extentFor a.toNat 128) a .none c.sys.kperm with
    | .error _ => s
    | .ok x =>
      if isDevFrame x.pa then s
      else if s.heldOverlap c.tridN (x.pa / 128 * 128) 128 || (s.flushWait (clusterOf w.core) x scope).isSome then
        { s with cacheOps := s.cacheOps ++ [⟨s.accId, c.tridN, clusterOf w.core, x, scope, inv⟩], accId := s.accId + 1 }
      else s.flushOne (clusterOf w.core) x scope inv) s

/-- A CFLUSH or CINV slot. -/
def slotCacheOp (inv : Bool) (d : R5) (a : BitVec 4) (scope : BitVec 3) : SlotSem :=
  slotMem (5 < scope.toNat) [(.a, a.toNat), (.x, d.toNat)] [] false
    (fun w s =>
      let c := s.ctx w
      firstVerdict (s.acqWait w :: (if s.coherentHost then (lineRange (c.regs.getA a.toNat) (c.regs.getX d.toNat).toNat).map fun v =>
        if isGlobal v then .go else biasVerdict (s.coreWalkWait w.core c.asid (c.extentFor v.toNat 128) v 1) else [])))
    (fun w p s =>
      let c := p.ctx w
      s.flushRange w c (c.regs.getA a.toNat) (c.regs.getX d.toNat).toNat scope.toNat inv)

/-- CFLUSH. -/
def slotCflush (d : R5) (a : BitVec 4) (scope : BitVec 3) : SlotSem := slotCacheOp false d a scope
/-- CINV. -/
def slotCinv (d : R5) (a : BitVec 4) (scope : BitVec 3) : SlotSem := slotCacheOp true d a scope

/-- PREF (R301): no effect that a program can observe except in time. -/
def slotPref (a : BitVec 4) (level : BitVec 2) (_disp : BitVec 8) : SlotSem :=
  { lane := 4, ill := level == 3, reads := [(.a, a.toNat)] }

/-! ## Address registers, cask lines and keys (R82, R83, R302 to R304) -/

/-- AMOV. -/
def slotAmov (d : R5) (a : BitVec 4) (imm : BitVec 13) : SlotSem :=
  { lane := 4, ill := !regOk .a d.toNat, reads := [(.a, a.toNat)], writes := [(.a, d.toNat)]
    results := fun w s => [Res.w .a d.toNat ((s.ctx w).regs.getA a.toNat + imm.signExtend 64) 1] }

/-- AINC. -/
def slotAinc (d : R5) (a : BitVec 4) (imm : BitVec 13) : SlotSem :=
  { lane := 4, ill := !regOk .a d.toNat, reads := [(.a, a.toNat)], writes := [(.a, d.toNat)]
    results := fun w s => [Res.w .a d.toNat ((s.ctx w).regs.getA a.toNat + imm.signExtend 64 * 256#64) 1] }

/-- Whether an ASID lies in the range of an interface's VICFG words (Table 17-4). -/
def viOwns (w0 : W64) (asid : Nat) : Bool :=
  bit w0 63 && fld w0 62 53 ≤ asid && asid < fld w0 62 53 + fld w0 52 42

/-- Whether the quota CASKQ of the interface that owns an ASID leaves no line, of 64 KiB units over all clusters (R395). -/
def State.caskSpent (s : State) (asid : Nat) : Bool :=
  (List.range 64).any fun v =>
    let w0 := tget 0 s.link.vicfg (8 * v)
    viOwns w0 asid && fld (tget 0 s.link.vicfg (8 * v + 1)) 31 16 * 512 ≤
      (s.clus.map fun c => (c.2.cask.filter fun p => viOwns w0 p.2.asid).length).sum

/-- Pins one line for an ASID: whether the allocation goes on, and the cluster (R82, R395). -/
def State.pinLine (s : State) (clu asid l : Nat) : Option State :=
  if 196608 ≤ l || min (fld (s.clu clu).caskctl 3 0) 12 ≤ l / 16384 then none
  else match tget? (s.clu clu).cask l with
  | some k => if k.asid = asid then some s else none
  | none => if s.caskSpent asid then none else
    let s := match ((s.clu clu).inSet (l % 16384)).find? fun p => p.2.way == 15 - l / 16384 with
      | some p => s.dropLine clu p.1
      | none => s
    some (s.updClu clu fun c => { c with cask := tset c.cask l { asid := asid, data := 0 } })

/-- cask_alloc over n lines from l (R82). -/
def State.caskAlloc (s : State) (clu asid : Nat) : Nat → Nat → Nat → Nat × State
  | 0, _, got => (got, s)
  | n + 1, l, got => match s.pinLine clu asid l with
    | none => (got, s)
    | some s' => s'.caskAlloc clu asid n (l + 1) (got + 1)

/-- CASK.FREE over n lines from l (R83). -/
def State.caskFree (s : State) (clu asid l n : Nat) : Nat × State :=
  let mine := fun (p : Nat × Cask) => l ≤ p.1 && p.1 < l + n && p.2.asid == asid
  (((s.clu clu).cask.filter mine).length, s.updClu clu fun c => { c with cask := c.cask.filter fun p => !mine p })

/-- A cask slot. -/
def slotCask (d : R5) (a : BitVec 4) (f : State → Nat → Nat → Nat → Nat × State) : SlotSem :=
  slotMem false [(.a, a.toNat)] [(.x, d.toNat)] true
    (fun w s =>
      let va := (s.ctx w).regs.getA a.toNat
      firstVerdict [alignVerdict 0 128 [BitVec.ofNat 64 (bufOff va)], s.acqWait w])
    (fun w p s =>
      let c := p.ctx w
      let r := f s (clusterOf w.core) c.asid (bufOff (c.regs.getA a.toNat) / 128)
      r.2.scoreboard w (sbNow .x d.toNat wholeMask (BitVec.ofNat 2048 r.1)))

/-- CASK.ALLOC. -/
def slotCaskAlloc (d : R5) (a : BitVec 4) (n : BitVec 13) : SlotSem :=
  slotCask d a fun s clu asid l => s.caskAlloc clu asid n.toNat l 0

/-- CASK.FREE. -/
def slotCaskFree (d : R5) (a : BitVec 4) (n : BitVec 13) : SlotSem :=
  slotCask d a fun s clu asid l => s.caskFree clu asid l n.toNat

/-- SETKP (R304): a RIGHT of 10 writes "none". -/
def slotSetkp (key : R5) (right : BitVec 2) : SlotSem :=
  { lane := 4
    effect := fun w _ s => s.updSys w fun y =>
      { y with kperm := setFld y.kperm (2 * key.toNat + 1) (2 * key.toNat) (if right == 2 then 0 else right.toNat) } }

/-! ## The meanings -/

/-- LD. -/
def execLd (f : SFile) (sz : LdSz) (o : LmOpd) (s : State) := issueOne (slotLd f sz o) s
/-- ST. -/
def execSt (f : SFile) (sz : StSz) (o : LmOpd) (s : State) := issueOne (slotSt f sz o) s
/-- VLD. -/
def execVld (d : R5) (a : BitVec 4) (k : BitVec 3) (disp : BitVec 8) (s : State) := issueOne (slotVld d a k disp) s
/-- VST. -/
def execVst (d : R5) (a : BitVec 4) (k : BitVec 3) (disp : BitVec 8) (s : State) := issueOne (slotVst d a k disp) s
/-- VLDS. -/
def execVlds (d : R5) (a : BitVec 4) (k : BitVec 3) (ix : BitVec 4) (esz : BitVec 2) (s : State) :=
  issueOne (slotVlds d a k ix esz) s
/-- VSTS. -/
def execVsts (d : R5) (a : BitVec 4) (k : BitVec 3) (ix : BitVec 4) (esz : BitVec 2) (s : State) :=
  issueOne (slotVsts d a k ix esz) s
/-- VGTH. -/
def execVgth (d : R5) (a : BitVec 4) (k : BitVec 3) (ix : R5) (esz : BitVec 2) (s : State) :=
  issueOne (slotVgth d a k ix esz) s
/-- VSCT. -/
def execVsct (d : R5) (a : BitVec 4) (k : BitVec 3) (ix : R5) (esz : BitVec 2) (s : State) :=
  issueOne (slotVsct d a k ix esz) s
/-- BLD. -/
def execBld (o : LbOpd) (s : State) := issueOne (slotBld o) s
/-- BST. -/
def execBst (o : LbOpd) (s : State) := issueOne (slotBst o) s
/-- ATADD. -/
def execAtadd (o : LaOpd) (s : State) := issueOne (slotAtadd o) s
/-- ATMIN. -/
def execAtmin (o : LaOpd) (s : State) := issueOne (slotAtmin o) s
/-- ATMAX. -/
def execAtmax (o : LaOpd) (s : State) := issueOne (slotAtmax o) s
/-- ATXCH. -/
def execAtxch (o : LaOpd) (s : State) := issueOne (slotAtxch o) s
/-- ATOR. -/
def execAtor (o : LaOpd) (s : State) := issueOne (slotAtor o) s
/-- ATAND. -/
def execAtand (o : LaOpd) (s : State) := issueOne (slotAtand o) s
/-- ATCAS. -/
def execAtcas (o : LaOpd) (s : State) := issueOne (slotAtcas o) s
/-- ATCAS2. -/
def execAtcas2 (o : LaOpd) (s : State) := issueOne (slotAtcas2 o) s
/-- FENCE. -/
def execFence (scope : BitVec 3) (kind : BitVec 2) (s : State) := issueOne (slotFence scope kind) s
/-- CFLUSH. -/
def execCflush (d : R5) (a : BitVec 4) (scope : BitVec 3) (s : State) := issueOne (slotCflush d a scope) s
/-- CINV. -/
def execCinv (d : R5) (a : BitVec 4) (scope : BitVec 3) (s : State) := issueOne (slotCinv d a scope) s
/-- PREF. -/
def execPref (a : BitVec 4) (level : BitVec 2) (disp : BitVec 8) (s : State) := issueOne (slotPref a level disp) s
/-- AMOV. -/
def execAmov (d : R5) (a : BitVec 4) (imm : BitVec 13) (s : State) := issueOne (slotAmov d a imm) s
/-- AINC. -/
def execAinc (d : R5) (a : BitVec 4) (imm : BitVec 13) (s : State) := issueOne (slotAinc d a imm) s
/-- CASK.ALLOC. -/
def execCaskAlloc (d : R5) (a : BitVec 4) (n : BitVec 13) (s : State) := issueOne (slotCaskAlloc d a n) s
/-- CASK.FREE. -/
def execCaskFree (d : R5) (a : BitVec 4) (n : BitVec 13) (s : State) := issueOne (slotCaskFree d a n) s
/-- SETKP. -/
def execSetkp (key : R5) (right : BitVec 2) (s : State) := issueOne (slotSetkp key right) s

end Sys2Proof.Machine
end

