-- ==== Sys2Proof/Machine/Place.lean ====
section
/-! DEFINITION. Placement entries: their fields, installs, bitmaps and readiness (R120 to R127). -/

namespace Sys2Proof.Machine

/-! ## Fields of an entry (Table 06-3) -/

/-- Destination. -/
def plDest (e : List W64) : W64 := wd e 0
/-- Stride of dimension d. -/
def plStr (e : List W64) : Nat → Int
  | 1 => sfld (wd e 1) 63 32 | 2 => sfld (wd e 1) 31 0 | 3 => sfld (wd e 2) 63 32 | _ => 0
/-- Chunk extent of dimension d. -/
def plCh (e : List W64) (d : Nat) : Nat := fld (wd e 3) (16 * d + 15) (16 * d)
/-- Chunks along dimension d. -/
def plNc (e : List W64) (d : Nat) : Nat := fld (wd e 4) (16 * d + 15) (16 * d)
/-- V. -/
def plV (e : List W64) : Bool := bit (wd e 6) 63
/-- EVT. -/
def plEvt (e : List W64) : Bool := bit (wd e 6) 62
/-- RINGEN. -/
def plRingen (e : List W64) : Bool := bit (wd e 6) 61
/-- RING. -/
def plRing (e : List W64) : Nat := fld (wd e 6) 60 57
/-- MODE. -/
def plMode (e : List W64) : Nat := fld (wd e 6) 56 55
/-- FMT. -/
def plFmt (e : List W64) : Nat := fld (wd e 6) 54 51
/-- EPOCH. -/
def plEpoch (e : List W64) : Nat := fld (wd e 6) 47 40
/-- NCONTRIB. -/
def plContrib (e : List W64) : Nat := fld (wd e 6) 39 28
/-- Owner. -/
def plTrid (e : List W64) : Nat := fld (wd e 7) 63 40
/-- Destination cluster. -/
def plClu (e : List W64) : Nat := fld (wd e 7) 39 37
/-- Whether a core is the one whose buffers an entry names, or is in the cluster whose cask it names (R129). -/
def plHere (e : List W64) (core : Nat) : Bool :=
  if bufSpace (plDest e) = 3 then clusterOf core == plClu e else core == plClu e * 64 + fld (plDest e) 59 54
/-- The task that owns an entry: of the tasks of its id the one on the entry's core, else the first (log 14). -/
def State.ownerKey (s : State) (e : List W64) : Option Nat :=
  let l := s.named (plTrid e)
  match l.find? fun k => ((tget? s.tasks k).map fun t => plHere e t.core).getD false with
  | some k => some k
  | none => l.head?

/-- Where the owner of an entry is: the context, whether its buffers are resident on the core that the entry names, and
whether it is dispatched (R129). -/
def State.owner (s : State) (e : List W64) : Option (At × Bool × Bool) :=
  ((s.ownerKey e).bind fun k => tget? s.tasks k).map fun t =>
    let there := plHere e t.core
    (⟨t.core, t.ctx⟩, there && (!t.saved || t.resident), there && !t.saved)

/-- The buffer address of an entry's first element: of the ring slot at P in ring mode (R123, R126). -/
def State.plBase (s : State) (e : List W64) : W64 :=
  if !plRingen e then plDest e
  else match s.owner e with
    | some (w, _, _) => (s.ctx w).eng.slotAddr (plRing e) (s.ringPtr w (plRing e)).p
    | none => plDest e

/-- A buffer address at an offset. -/
def bufAdd (base : W64) (off : Int) : W64 := setFld base 24 0 ((bufOff base : Int) + off).toNat

/-- Elements of a chunk. -/
def plElems (e : List W64) : Nat := plCh e 0 * plCh e 1 * plCh e 2 * plCh e 3
/-- Bytes of a chunk. -/
def plBytes (e : List W64) : Nat := elemBytes (plFmt e) (plElems e)
/-- Chunks of the tensor. -/
def plChunks (e : List W64) : Nat := plNc e 0 * plNc e 1 * plNc e 2 * plNc e 3

/-- The coordinates in a COORD word. -/
def coordOf (w : W64) (d : Nat) : Nat := fld w (16 * d + 15) (16 * d)

/-- The bitmap index of a chunk (R123). -/
def plIndex (e : List W64) (c : Nat → Nat) : Nat :=
  c 0 + plNc e 0 * (c 1 + plNc e 1 * (c 2 + plNc e 2 * c 3))

/-- The offset from the base of the row of elements (0, k1, k2, k3) of chunk c (R123). -/
def plRowOff (e : List W64) (c : Nat → Nat) (k1 k2 k3 : Nat) : Int :=
  (c 0 * plCh e 0 * fmtWidth (plFmt e) / 8 : Nat) +
  ((c 1 * plCh e 1 + k1 : Nat) : Int) * plStr e 1 + ((c 2 * plCh e 2 + k2 : Nat) : Int) * plStr e 2 +
  ((c 3 * plCh e 3 + k3 : Nat) : Int) * plStr e 3

/-- The rows of a chunk: payload offset and k1, k2, k3. -/
def plRows (e : List W64) : List (Nat × Nat × Nat × Nat) :=
  let row := elemBytes (plFmt e) (plCh e 0)
  (List.range (plCh e 1 * plCh e 2 * plCh e 3)).map fun i =>
    (i * row, i % max 1 (plCh e 1), i / max 1 (plCh e 1) % max 1 (plCh e 2), i / max 1 (plCh e 1 * plCh e 2))

/-- Lowest and highest row offsets of the tensor from its base. -/
def plSpan (e : List W64) : Int × Int :=
  [1, 2, 3].foldl (fun (r : Int × Int) d =>
    let t := ((plNc e d * plCh e d - 1 : Nat) : Int) * plStr e d
    if t < 0 then (r.1 + t, r.2) else (r.1, r.2 + t)) (0, 0)

/-- Bytes of a row of the whole tensor. -/
def plRowBytes (e : List W64) : Nat := elemBytes (plFmt e) (plNc e 0 * plCh e 0)

/-! ## Tables -/

/-- An entry that a handle names and that is valid (R120). -/
def State.placeAt (s : State) (asid h : Nat) : Option Place :=
  let c := s.commOf asid
  if c.ptsize ≤ h then none
  else match tget? c.table h with
  | some p => if plV p.words then some p else none
  | none => none

/-- Changes an entry. -/
def State.updPlace (s : State) (asid h : Nat) (p : Place) : State :=
  s.updComm asid fun c => { c with table := tset c.table h p }

/-! ## Bitmaps (R125, R127) -/

/-- The word of an entry's arrival bitmap that holds a bit. -/
def plWord (e : List W64) (j : Nat) : W64 := wd e 5 + BitVec.ofNat 64 (8 * (j / 64))

/-- A bit of an entry's arrival bitmap. -/
def State.plBit (s : State) (asid : Nat) (e : List W64) (j : Nat) : Bool :=
  (w64 (s.bufRead (plClu e) asid (plWord e j) 8).1).getLsbD (j % 64)

/-- Sets a bit by an atomic OR, one access of its word (R84, R125). -/
def State.plSetBit (s : State) (asid : Nat) (e : List W64) (j : Nat) : State :=
  let old := w64 (s.bufRead (plClu e) asid (plWord e j) 8).1
  s.bufWrite (plClu e) asid (plWord e j) (toBytes 8 ((old ||| BitVec.ofNat 64 (1 <<< (j % 64))).toNat))

/-- Zeroes a bitmap. -/
def State.plClear (s : State) (asid : Nat) (e : List W64) : State :=
  s.bufWrite (plClu e) asid (wd e 5) (List.replicate ((plChunks e + 63) / 64 * 8) 0)

/-- Whether every bit of an epoch is set: what the transport knows of the bits it sets itself, which is no access. -/
def State.plFull (s : State) (asid : Nat) (e : List W64) : Bool :=
  (List.range (plChunks e)).all fun j => s.plBit asid e j

/-- The numbers from a to b. -/
def span (a b : Nat) : List Nat := if b < a then [] else (List.range (b - a + 1)).map (a + ·)

/-- region_ready (R127); a chunk outside the tensor has no bit and is never set. -/
def State.regionReady (s : State) (asid : Nat) (e : List W64) (lo hi : Nat → Nat) : Bool :=
  let r := fun d => span (lo d / max 1 (plCh e d)) (hi d / max 1 (plCh e d))
  (r 3).all fun c3 => (r 2).all fun c2 => (r 1).all fun c1 => (r 0).all fun c0 =>
    let c := fun d => match d with
      | 0 => c0 | 1 => c1 | 2 => c2 | _ => c3
    [0, 1, 2, 3].all (fun d => c d < plNc e d) && s.plBit asid e (plIndex e c)

/-- The chunks of a region, in the order of R127. -/
def plRegion (e : List W64) (lo hi : Nat → Nat) : List (Nat → Nat) :=
  let r := fun d => span (lo d / max 1 (plCh e d)) (hi d / max 1 (plCh e d))
  ((r 3).map fun c3 => ((r 2).map fun c2 => ((r 1).map fun c1 => (r 0).map fun c0 =>
    fun d => match d with
      | 0 => c0 | 1 => c1 | 2 => c2 | _ => c3).flatten).flatten).flatten

/-- The OVERLAP trap of a wait on a region whose destination bytes the phase sets do not give to placement (R346). -/
def State.plPhase (s : State) (w : At) (lane : Nat) (e : List W64) (lo hi : Nat → Nat) : Option Trap :=
  if !(((s.taskOf w).map (·.det)).getD false) then none
  else
    let b := s.plBase e
    (plRegion e lo hi).findSome? fun c => (plRows e).findSome? fun r =>
      let a := bufAdd b (plRowOff e c r.2.1 r.2.2.1 r.2.2.2)
      s.phaseTrap w lane 0 8 true (bufSpace a) (fld a 59 54) (bufOff a) (elemBytes (plFmt e) (plCh e 0))

/-- What a test of a region's readiness leaves: it reads the words of the bits up to the first that is 0, and an access of a cask
line that is not pinned is counted (R84, R127). -/
def State.regionRead (s : State) (asid : Nat) (e : List W64) (lo hi : Nat → Nat) : State :=
  ((plRegion e lo hi).foldl (fun (r : Bool × State) c =>
    if !r.1 || [0, 1, 2, 3].any (fun d => plNc e d ≤ c d) then (false, r.2)
    else (r.2.plBit asid e (plIndex e c), (r.2.bufRead (plClu e) asid (plWord e (plIndex e c)) 8).2)) (true, s)).2

/-! ## Installs (R122) -/

/-- The core and the engine registers of an entry's owner: of its context, or of its image while it is saved. -/
def State.ownerEng (s : State) (e : List W64) : Option (Nat × Eng) :=
  (s.ownerKey e).bind fun k => (tget? s.tasks k).map fun t =>
    (t.core, if t.saved then (s.ctxOfImage t.save.toNat t k).eng else (s.ctx ⟨t.core, t.ctx⟩).eng)

/-- Whether the ring that a ring-mode entry names, one of its owner's (R126), is not usable (R110) or has slots that are too small for
the highest placement offset `top`; an entry whose strides give a negative offset is turned away too, the model's choice (log 63). -/
def State.plRingBad (s : State) (e : List W64) (low top : Int) : Bool :=
  plRingen e && (low < 0 || match s.ownerEng e with
    | some (core, g) => !g.ringOk (plRing e) (s.engPtr core g (plRing e)).taken || (g.slotBytes (plRing e) : Int) < top
    | none => true)

/-- PLWSTAT.RESULT of an install by a context in an ASID, by the first check that fails; 0 for none. -/
def State.plCheck (s : State) (w : At) (asid h : Nat) (e : List W64) : Nat :=
  let f := plFmt e
  let red := plMode e == 1 || plMode e == 2
  let g := plSpan e
  let rb := plRowBytes e
  let space := bufSpace (plDest e)
  let ringBad := s.plRingBad e g.1 (g.2 + (rb : Int))
  let base : Int := if plRingen e then 0 else (bufOff (plDest e) : Int)
  let bm := wd e 5
  if !plV e then 0
  else if (s.commOf asid).ptsize ≤ h then 5
  else if 14 ≤ f || plMode e == 3 || (red && !(f == 0 || f == 1 || f == 9 || f == 10)) then 4
  else if [0, 1, 2, 3].any (fun d => plCh e d == 0 || plNc e d == 0) || 4096 < plBytes e || 2 ^ 20 < plChunks e ||
      (f == 5 && plCh e 0 % 2 == 1) || (red && plContrib e == 0) || ringBad then 7
  else if !(space == 0 || space == 1 || space == 3) then 1
  else if fld (plDest e) 53 25 != 0 || (space == 3 && fld (plDest e) 59 54 != 0) || base + g.1 < 0 ||
      (spaceSize space : Int) < base + g.2 + (rb : Int) then 2
  else if !(bufSpace bm == 1 || bufSpace bm == 3) || bufOff bm % 8 != 0 || !bufInRange bm ((plChunks e + 63) / 64 * 8)
  then 3
  else if ((s.taskOf w).map (·.det)).getD false && plMode e == 1 && (f == 0 || f == 1) then 6
  else 0

/-- Whether an install is a rehoming install (R122): CLRMAP 0, and equal but for DEST.CORE, BITMAP's CORE and CLU. -/
def rehoming (clr : Bool) (old new : List W64) : Bool :=
  !clr && plV old && setFld (wd old 0) 59 54 0 == setFld (wd new 0) 59 54 0 &&
  setFld (wd old 5) 59 54 0 == setFld (wd new 5) 59 54 0 && setFld (wd old 7) 39 37 0 == setFld (wd new 7) 39 37 0 &&
  [1, 2, 3, 4, 6].all fun i => wd old i == wd new i

/-- Places an entry in a table: a rehoming install keeps partials and counts (R122). Otherwise staged contributions are
discarded, and the counts of the epoch start again when the epoch or the bitmap does. An install with V = 0 and CLRMAP = 1 only
withdraws the handle and clears no bitmap, the model's choice (log 63). -/
def State.plInstall (s : State) (asid h : Nat) (clr : Bool) (e : List W64) : State :=
  let old := (tget? (s.commOf asid).table h).getD { words := [], count := [], staged := [], epochs := 0, taken := 0, srcs := [] }
  let s := if clr && plV e then s.plClear asid e else s
  let keep := !clr && plEpoch old.words == plEpoch e
  let p : Place := if rehoming clr old.words e then { old with words := e }
    else
      let back := fun (t : Tab Nat) (x : Nat × Nat × W64 × List Byte) => tset t x.1 (tget 0 t x.1 - 1)
      { words := e, count := if keep then old.staged.foldl back old.count else [], staged := [], epochs := 0, taken := 0,
        srcs := [] }
  s.updPlace asid h p

/-- PLACEMENT_INSTALL: the install that a context's EWR to PLWCMD asks for, in the ASID that it had then (R122, R248). -/
def State.plwInstall (s : State) (w : At) : State :=
  match (s.ctx w).eng.plwPend with
  | none => s
  | some (cmd, asid) =>
    let e := (List.range 8).map fun i => tget 0 (s.ctx w).eng.plw i
    let h := fld cmd 23 0
    let r := s.plCheck w asid h e
    let s := if r = 0 then s.plInstall asid h (bit cmd 24) e else s
    s.updEng w fun x => { x with plwPend := none, plwstat := BitVec.ofNat 64 r }

end Sys2Proof.Machine
end

