-- ==== Sys2Proof/Machine/Matrix.lean ====
section
/-! DEFINITION. The MX lane and the events of the presses (R14, R180 to R191, R197 to R199, R305). -/

namespace Sys2Proof.Machine

open Sys2Proof

/-! ## Descriptors and operations -/

/-- The shadow words of set n (R180). -/
def Eng.mdSet (e : Eng) (n : Nat) : List W64 := (List.range 9).map fun i => tget 0 e.md (9 * n + i)

/-- The operation that a slot issues now: its active copy of the set (R180, R185). -/
def State.mmaOp (s : State) (w : At) (gated : Bool) (o : MmaOpd) : PressOp :=
  let d := (s.ctx w).eng.mdSet o.set.toNat
  { ctx := w.ctx, trid := (s.ctx w).tridN, asid := (s.ctx w).asid, gated := gated, words := d, o := o, start := s.cycle,
    cycles := mdK d / max 1 (mdKr d), results := [], issued := s.cycle, cut := [], init := [], ended := false }

/-- Whether an operation streams, so that its press is not free, in a cycle (R185). -/
def PressOp.busy (o : PressOp) (t : Nat) : Bool := t < o.start + o.cycles

/-- Whether an operation draws (R14). -/
def PressOp.draws (o : PressOp) : Bool := mdDraws o.words

/-- A byte range list of A, or of B. -/
def PressOp.aRanges (o : PressOp) : List (Nat × Nat) := mdARanges o.words o.o.ef
/-- The byte ranges of B. -/
def PressOp.bRanges (o : PressOp) : List (Nat × Nat) := mdBRanges o.words o.o.ef

/-- Whether two lists of ranges touch one bank group. -/
def shareGroup (a b : List (Nat × Nat)) : Bool := [0, 1].any fun g => touchesGroup a g && touchesGroup b g

/-- Whether two operations draw more than a core's generator gives (R14). -/
def PressOp.overdraws (o x : PressOp) : Bool := o.draws && x.draws && (mdBF o.words == 12 || mdBF x.words == 12)

/-- Whether an MMAG that a resume brought back waits on press p, since the other press streams an operation that it may not draw beside
(R14, R192; log 50). -/
def Core.drawWaits (k : Core) (p : Nat) (o : PressOp) (t : Nat) : Bool :=
  (k.pressOf (1 - p)).ops.any fun x => x.busy t && o.overdraws x

/-- BANK of an operation on press p (R14, R184). -/
def Core.bankBad (k : Core) (p : Nat) (o : PressOp) (t : Nat) : Bool :=
  let r := o.region
  let other := k.pressOf (1 - p)
  let act := (other.ops.filter fun x => x.busy t) ++ other.mmags
  let rows := fun (b : Bool) => (if b then o.aRanges else o.bRanges)
  let na := mdM o.words o.o.ef
  let nb := mdN o.words o.o.ef
  bothGroups ((rows true).take na) || bothGroups ((rows true).drop na) ||
  bothGroups ((rows false).take nb) || bothGroups ((rows false).drop nb) ||
  !(p * 2 ^ 18 ≤ r.off && r.stop ≤ (p + 1) * 2 ^ 18) ||
  act.any fun x => shareGroup x.aRanges o.aRanges || shareGroup x.bRanges o.bRanges || o.overdraws x

/-- The PAGEFAULT of a range that runs past its buffer (R183): TADDR is the buffer address of its first byte. -/
def rangeTrap (core : Nat) (rs : List (Nat × Nat)) (space : Nat) : Option Trap :=
  (rs.find? fun r => spaceSize space < r.1 + r.2).map fun r => trapAt 6 7 5 5 (bufWord space core r.1)

/-- The rows of a region as ranges of CB. -/
def Region.ranges (r : Region) : List (Nat × Nat) := (List.range r.m).map fun m => (r.cell m 0, 4 * r.n)

/-- The hold that a context's earlier operations on a press will leave, one that a resume has still to restore included (R186,
R192). -/
def Press.futureHold (x : Press) (ctx : Nat) : Option (Nat × Region) :=
  match (x.mmags.filter fun o => o.ctx == ctx).getLast? with
  | some o => if o.o.w || o.ended then none else some (ctx, o.region)
  | none => match x.held.find? fun h => h.ctx == ctx with
    | some h => some (ctx, h.region)
    | none => x.hold

/-- Whether an operation continues (R186). -/
def mmaCont (o : MmaOpd) : Bool := !o.z && !o.a

/-- A gate of an operation (R190): its descriptor word and the box extent in dimension 1. -/
def PressOp.gates (o : PressOp) : List (W64 × Nat) :=
  [(wd o.words 7, mdM o.words o.o.ef), (wd o.words 8, mdN o.words o.o.ef)].filter fun g => bit g.1 63

/-- The corners of a gate's box (R190). -/
def gateLo (g : W64) : Nat → Nat
  | 0 => fld g 15 0 | 1 => fld g 31 16 | _ => 0
/-- The far corner. -/
def gateHi (g : W64) (k n : Nat) : Nat → Nat
  | 0 => fld g 15 0 + k - 1 | 1 => fld g 31 16 + n - 1 | _ => 0

/-- The first trap of a list. -/
def firstTrap : List (Option Trap) → Option Trap
  | [] => none
  | some t :: _ => some t
  | none :: l => firstTrap l

/-- The phase-set checks of a list of ranges (R346). -/
def State.rangesPhase (s : State) (w : At) (engine : Nat) (write : Bool) (space : Nat) (rs : List (Nat × Nat)) :
    Option Trap :=
  rs.findSome? fun r => s.phaseTrap w 5 0 engine write space w.core r.1 r.2

/-- Check 5 of MMA and MMAG, in the order of R305. -/
def State.mmaTrap (s : State) (w : At) (p : Nat) (o : PressOp) : Option Trap :=
  let k := s.core w.core
  let r := o.region
  let c := s.ctx w
  let tr := fun (b : Bool) (cause : Nat) => if b then some (trapAt cause 0 0 5 0) else none
  let gate := fun (g : W64 × Nat) => s.placeAt c.asid (fld g.1 55 32)
  firstTrap [
    tr (mdIllegal o.words o.o.ef) 1,
    rangeTrap w.core o.aRanges 1, rangeTrap w.core o.bRanges 0, rangeTrap w.core r.ranges 2,
    tr (k.bankBad p o s.cycle) 11,
    tr (mmaCont o.o && (k.pressOf p).futureHold w.ctx != some (w.ctx, r)) 14,
    tr (o.gated && o.gates.any fun g => (gate g).isNone) 14,
    if o.o.a then
      match k.pending.find? fun q => q.1 != w.ctx && q.2.overlaps r with
      | some q => some (trapAt 12 0 0 5 (bufWord 2 w.core
          ((r.ranges.findSome? fun x => q.2.firstIn x.1 x.2).getD r.off)))
      | none => none
    else none,
    if o.gated then o.gates.findSome? fun g => match gate g with
      | some e => s.plPhase w 5 e.words (gateLo g.1) (gateHi g.1 (mdK o.words) g.2)
      | none => none
    else none,
    s.rangesPhase w (1 + p) false 1 o.aRanges, s.rangesPhase w (1 + p) false 0 o.bRanges,
    if o.o.a then s.rangesPhase w (1 + p) false 2 r.ranges else none,
    if o.o.w then s.rangesPhase w (1 + p) true 2 r.ranges else none]

/-- Whether an operand of an operation overlaps the destination of an MCVT of its context that is not complete (R199). -/
def Core.mcvtBusy (k : Core) (ctx : Nat) (o : PressOp) : Bool :=
  k.mcvts.any fun z => z.ctx == ctx && z.bytes.any fun b =>
    (if z.space = 1 then o.aRanges else o.bRanges).any fun r => r.1 ≤ b.1 && b.1 < r.1 + r.2

/-- Whether a press is free for an operation of a context to start, but for the reload of restored cells (R185, R186, R402). -/
def Press.open (x : Press) (o : PressOp) (t : Nat) : Bool :=
  !(x.ops.any fun q => q.busy t) && x.ops.length < 16 && x.busyTo ≤ t &&
  match x.hold with
  | some h => h.1 == o.ctx
  | none => !(x.held.any fun h => h.ctx == o.ctx)

/-- Whether an operation finds restored cells that are still to reload (R192). -/
def Press.reloads (x : Press) (o : PressOp) : Bool := mmaCont o.o && x.fresh && (x.hold.map (·.1)) == some o.ctx

/-- Starts the reload of a press's restored cells (R192). -/
def State.startReload (s : State) (core p : Nat) : State :=
  s.updPress core p fun x => { x with fresh := false, reload := s.cycle + 16 }

/-- Whether a press is free for an operation of a context to start (R185, R186, R192, R402). -/
def Press.free (x : Press) (o : PressOp) (t : Nat) : Bool :=
  x.open o t && !x.reloads o && (!mmaCont o.o || x.reload ≤ t)

/-- Whether the gates of an operation are ready, in the ASID that it took as it issued (R127, R190, R248). -/
def State.gatesReady (s : State) (o : PressOp) : Bool :=
  o.gates.all fun g => match s.placeAt o.asid (fld g.1 55 32) with
    | some e => s.regionReady o.asid e.words (gateLo g.1) (gateHi g.1 (mdK o.words) g.2)
    | none => false

/-- The MMAG of a press whose gates are ready and that stands first of its context, if a test of the press lets it go. -/
def State.mmagFirst (s : State) (core p : Nat) (ok : Press → PressOp → Bool) : Option PressOp :=
  let k := s.core core
  let x := k.pressOf p
  x.mmags.find? fun o =>
    ((x.mmags.find? fun q => q.ctx == o.ctx) == some o) && ok x o && !k.drawWaits p o s.cycle && s.gatesReady o

/-- The MMAG of a press that starts next: the first in the queue that stands first of its context and whose conditions hold
(R188, R190). -/
def State.mmagNext (s : State) (core p : Nat) : Option PressOp := s.mmagFirst core p fun x o => x.free o s.cycle

/-- What the tests of the gates of some of a press's MMAGs leave, each counted where it reads a cask line that is not pinned (R84,
R190). -/
def State.gatesRead (s : State) (core p : Nat) (which : PressOp → Bool) : State :=
  let x := (s.core core).pressOf p
  let tried := x.mmags.filter fun o =>
    which o && ((x.mmags.find? fun q => q.ctx == o.ctx) == some o) && x.open o s.cycle
  (tried.map fun o => o.gates.map fun g => (o, g)).flatten.foldl (fun (s : State) g =>
    match s.placeAt g.1.asid (fld g.2.1 55 32) with
    | some e => s.regionRead g.1.asid e.words (gateLo g.2.1) (gateHi g.2.1 (mdK g.1.words) g.2.2)
    | none => s) s

/-- The MMAG of a press that is ready starts, if it is one of some, or starts the reload that it waits for (R188, R190, R192). -/
def State.tryMmag (s0 : State) (core p : Nat) (which : PressOp → Bool) : State :=
  let s := s0.gatesRead core p which
  match s0.mmagNext core p with
  | some o =>
    if which o then
      (s.updPress core p fun x => { x with mmags := x.mmags.erase o }).startPress core p { o with start := s.cycle }
    else s
  | none => match s0.mmagFirst core p fun x o => which o && x.open o s.cycle && x.reloads o with
    | some _ => s.startReload core p
    | none => s

/-- MMAG_START: every MMAG of a press is tried. -/
def State.startMmag (s : State) (core p : Nat) : State := s.tryMmag core p fun _ => true

/-- The stalls of MMA: an acquire, an MMAG of its own that has not started or that is ready on the press in this cycle, a press that
is not free, a reload, an MCVT (R185, R188, R192, R199, R343). -/
def State.mmaWait (s : State) (w : At) (p : Nat) (o : PressOp) : Option (Run × (State → State)) :=
  let k := s.core w.core
  let x := k.pressOf p
  if s.acqBusy w then some (.stalled, id)
  else if x.mmags.any (fun q => q.ctx == w.ctx) then some (.waiting, id)
  else if (s.mmagNext w.core p).isSome then some (.waiting, fun s => s.startMmag w.core p)
  else if x.open o s.cycle && x.reloads o then some (.stalled, fun s => s.startReload w.core p)
  else if !x.free o s.cycle then some (.waiting, id)
  else if k.mcvtBusy w.ctx o then some (.stalled, id) else none

/-- The stalls of MMAG (R190, R199, R343). -/
def State.mmagWait (s : State) (w : At) (p : Nat) (o : PressOp) : Option (Run × (State → State)) :=
  let k := s.core w.core
  if s.acqBusy w then some (.stalled, id)
  else if 8 ≤ ((k.pressOf p).mmags.filter fun q => q.ctx == w.ctx).length then some (.waiting, id)
  else if k.mcvtBusy w.ctx o then some (.stalled, id) else none

/-- The vintage increment of VC = 01 (R181). -/
def State.vintage (s : State) (w : At) (o : MmaOpd) : State :=
  if o.vc == 1 then s.updEng w fun e =>
    let i := 9 * o.set.toNat + 4
    let v := tget 0 e.md i
    { e with md := tset e.md i (setFld v 63 48 ((fld v 63 48 + 1) % 2 ^ 16)) }
  else s

/-- The illegal cases of a slot word (R181). -/
def mmaIll (o : MmaOpd) : Bool := (o.z && o.a) || 2 ≤ o.vc.toNat

/-- The press of a slot. -/
def mmaPress (o : MmaOpd) : Nat := if o.p then 1 else 0

/-- MMA (R185 to R189). -/
def slotMma (o : MmaOpd) : SlotSem :=
  let p := mmaPress o
  { lane := 5, ill := mmaIll o
    wait := fun w s => s.mmaWait w p (s.mmaOp w false o)
    trap5 := fun w s => s.mmaTrap w p (s.mmaOp w false o)
    effect := fun w q s => (s.startPress w.core p (q.mmaOp w false o)).vintage w o }

/-- MMAG (R190): it enters its press's queue, and starts in its issue cycle if nothing keeps it (R185, R445). -/
def slotMmag (o : MmaOpd) : SlotSem :=
  let p := mmaPress o
  { lane := 5, ill := mmaIll o
    wait := fun w s => s.mmagWait w p (s.mmaOp w true o)
    trap5 := fun w s => s.mmaTrap w p (s.mmaOp w true o)
    effect := fun w q s =>
      let z := q.mmaOp w true o
      ((s.updPress w.core p fun x => { x with mmags := x.mmags ++ [z] }).tryMmag w.core p (· == z)).vintage w o }

/-! ## MZERO (R191) -/

/-- The region of MZERO and MCVT. -/
def State.slotRegion (s : State) (w : At) (set : BitVec 4) (ef : Bool) : Region :=
  mdRegion ((s.ctx w).eng.mdSet set.toNat) ef

/-- What an MZERO of a context at a cycle does to an operation issued before it: its results there are cleared, a hold that it takes
there ends, and one that has still to start accumulates on the words that stand now (R186, R191). -/
def PressOp.zeroed (k : Core) (t : Nat) (r : Region) (o : PressOp) : PressOp :=
  let words := if o.o.a && o.region.overlaps r then
      (((List.range o.region.m).map fun m => (List.range o.region.n).map fun n => o.region.cell m n).flatten).filter fun a =>
        r.touches a 4
    else []
  { o with cut := o.cut ++ [(t, r)]
           ended := o.ended || (!o.o.w && o.region.overlaps r)
           init := words.foldl (fun l a => if (tget? l a).isSome then l else tset l a (BitVec.ofNat 32 (k.cbForward o a))) o.init }

/-- What an MZERO of a context does to a press: it comes behind the operations that its context has issued (R186, R191). -/
def Press.zeroed (k : Core) (ctx t : Nat) (r : Region) (x : Press) : Press :=
  let mine := fun (o : PressOp) => o.ctx == ctx
  { x with ops := mapIf mine (fun o => { o with cut := o.cut ++ [(t, r)] }) x.ops
           mmags := mapIf mine (PressOp.zeroed k t r) x.mmags
           held := x.held.filter fun h => !(h.ctx == ctx && h.region.overlaps r)
           hold := match x.hold with
             | some h => if h.1 = ctx && h.2.overlaps r then none else x.hold
             | none => none }

/-- MZERO. -/
def slotMzero (set : BitVec 4) (ef : Bool) : SlotSem :=
  { lane := 5
    wait := fun w s => if s.acqBusy w then some (.stalled, id) else none
    trap5 := fun w s =>
      let r := s.slotRegion w set ef
      firstTrap [rangeTrap w.core r.ranges 2,
        ((s.core w.core).press.findSome? fun x => match x.2.hold with
          | some h => if h.1 != w.ctx && h.2.overlaps r then
              some (trapAt 12 0 0 5 (bufWord 2 w.core ((r.ranges.findSome? fun y => h.2.firstIn y.1 y.2).getD r.off)))
              else none
          | none => none),
        r.ranges.findSome? fun x => s.rangesPhase w (1 + x.1 / 2 ^ 18) true 2 [x]]
    effect := fun w q s =>
      let r := q.slotRegion w set ef
      s.updCore w.core fun k =>
        { k with press := k.press.map fun x => (x.1, x.2.zeroed k w.ctx s.cycle r)
                 mzeros := k.mzeros ++ [{ ctx := w.ctx, region := r, issued := s.cycle, done := s.cycle + 4 + r.m, space := 2,
                                          bytes := [] }] } }

/-! ## MCVT (R197 to R199) -/

/-- The destination ranges of MCVT: rows, then scales. -/
def mcvtRanges (d : List W64) (o : McvtOpd) : List (Nat × Nat) :=
  let (off, str, soff) := mcvtDst d o
  let m := mdM d o.ef
  ((List.range m).map fun i => (off + i * str, elemBytes o.dfmt.toNat (mdN d o.ef))) ++
  (if o.dmx then (List.range m).map fun i => (soff + 32 * i, mdN d o.ef / 32) else [])

/-- Buffer of the destination: WB or AB. -/
def mcvtSpace (o : McvtOpd) : Nat := if o.dst then 0 else 1

/-- The bytes that MCVT writes; those of rows that overlap through the stride are free values (R198). -/
def mcvtCells (k : Core) (d : List W64) (o : McvtOpd) (n : Nat) : List Host.Cell :=
  let bs := mcvtBytes k d o
  if mcvtOverlaps d o then
    bs.map fun c => if 1 < (bs.filter fun x => x.1 == c.1).length then (c.1, Config.overlapByte n c.1) else c
  else bs

/-- MCVT. -/
def slotMcvt (o : McvtOpd) : SlotSem :=
  let sp := mcvtSpace o
  { lane := 5, ill := mcvtIllegalWord o
    wait := fun w s => if s.acqBusy w then some (.stalled, id) else none
    trap5 := fun w s =>
      let d := (s.ctx w).eng.mdSet o.set.toNat
      let r := mdRegion d o.ef
      firstTrap [if mcvtIllegalSet d o then some (trapAt 1 0 0 5 0) else none,
        rangeTrap w.core r.ranges 2, rangeTrap w.core (mcvtRanges d o) sp,
        ((s.core w.core).pending.find? fun q => q.2.overlaps r).map fun q =>
          trapAt 12 0 0 5 (bufWord 2 w.core ((r.ranges.findSome? fun y => q.2.firstIn y.1 y.2).getD r.off)),
        s.rangesPhase w 3 false 2 r.ranges, s.rangesPhase w 3 true sp (mcvtRanges d o)]
    effect := fun w q s =>
      let d := (q.ctx w).eng.mdSet o.set.toNat
      let r := mdRegion d o.ef
      let n := s.draw
      let z : MxSlow := { ctx := w.ctx, region := r, issued := s.cycle, done := s.cycle + 24 + r.m, space := sp,
                          bytes := mcvtCells (q.core w.core) d o n.1 }
      let s := if mcvtOverlaps d o then n.2 else s
      s.updCore w.core fun k => { k with mcvts := k.mcvts ++ [z] } }

/-! ## Events -/

/-- Completes an operation of a press in place at this cycle: its results are written; an MMAG's stays, pending, until its record has
room (R109, R185, R189, R190). -/
def State.landOp (s : State) (core p : Nat) (o : PressOp) : State :=
  if !o.inPlace s.cycle then s
  else
    let s := s.pressLand core p o
    if !o.gated then s.pressDone core p o
    else if (s.ctx ⟨core, o.ctx⟩).evRoom then
      (s.pressDone core p o).post ⟨core, o.ctx⟩ ⟨recW0 (fld (wd o.words 4) 39 24) 1 0 0 0 (o.region.m * o.region.n), 0⟩
    else s

/-- PRESS_RESULT_IN_PLACE: every operation of a press that is in place, in the order they started. -/
def State.landPress (s : State) (core p : Nat) : State :=
  let s := (((s.core core).pressOf p).ops).foldl (fun s o => s.landOp core p o) s
  if ((s.core core).pressOf p).held.isEmpty then s else s.updPress core p Press.rehold

/-- MZERO_COMPLETE (R191). -/
def State.landMzero (s : State) (core : Nat) : State :=
  ((s.core core).mzeros.filter fun z => z.done ≤ s.cycle).foldl (fun (s : State) z => s.updCore core fun k =>
    { k with cb := z.region.ranges.foldl (fun m r => mwrite m r.1 (List.replicate r.2 0)) k.cb
             mzeros := k.mzeros.erase z }) s

/-- MCVT_COMPLETE (R199). -/
def State.landMcvt (s : State) (core : Nat) : State :=
  ((s.core core).mcvts.filter fun z => z.done ≤ s.cycle).foldl (fun (s : State) z => s.updCore core fun k =>
    { k.updBuf z.space fun m => mwriteCells m z.bytes with mcvts := k.mcvts.erase z }) s

/-! ## The meanings -/

/-- MMA. -/
def execMma (o : MmaOpd) (s : State) := issueOne (slotMma o) s
/-- MMAG. -/
def execMmag (o : MmaOpd) (s : State) := issueOne (slotMmag o) s
/-- MZERO. -/
def execMzero (set : BitVec 4) (ef : Bool) (s : State) := issueOne (slotMzero set ef) s
/-- MCVT. -/
def execMcvt (o : McvtOpd) (s : State) := issueOne (slotMcvt o) s
/-- MMAG start. -/
def execMmagStart (core press : Nat) (s : State) : Host.Outcome State Fault Refusal := .next (s.startMmag core press)
/-- Press result in place. -/
def execPressResultInPlace (core press : Nat) (s : State) : Host.Outcome State Fault Refusal :=
  .next (s.landPress core press)
/-- MZERO complete. -/
def execMzeroComplete (core : Nat) (s : State) : Host.Outcome State Fault Refusal := .next (s.landMzero core)
/-- MCVT complete. -/
def execMcvtComplete (core : Nat) (s : State) : Host.Outcome State Fault Refusal := .next (s.landMcvt core)

end Sys2Proof.Machine
end

