-- ==== Sys2Proof/Machine/Records.lean ====
section
/-! DEFINITION. Task records: how they are read, the checks that a launch of one makes, and their entry into a task sequencer
(R319, R347, R348, R350, R357). -/

namespace Sys2Proof.Machine

open Sys2Proof

/-! ## Reading (R319, R347) -/

/-- n words at an address, sixteen bytes at a time, by a reader of bytes of one page. -/
def readWords (rd : State → W64 → Nat → Except Fail (List Byte × State)) (va : W64) (n : Nat) (s : State) :
    Except (Fail × W64) (List W64 × State) :=
  (List.range (n / 2)).foldl (fun acc i => match acc with
    | .error f => .error f
    | .ok (l, s) =>
      let a := va + BitVec.ofNat 64 (16 * i)
      match rd s a 16 with
      | .error f => .error (f, a)
      | .ok (bs, s) => .ok (l ++ [w64 (bs.take 8), w64 (bs.drop 8)], s)) (.ok ([], s))

/-- A list of n two-word entries (Tables 15-2 to 15-4): the access that fails, none where the list is misaligned. -/
def readEntries (rd : State → W64 → Nat → Except Fail (List Byte × State)) (va : W64) (n : Nat) (s : State) :
    Except (Option (Fail × W64)) (List (W64 × W64) × State) :=
  if n = 0 then .ok ([], s)
  else if va.toNat % 16 != 0 then .error none
  else match readWords rd va (2 * n) s with
  | .error f => .error (some f)
  | .ok (l, s) => .ok ((List.range n).map fun i => (wd l (2 * i), wd l (2 * i + 1)), s)

/-- A record's lists: address and number of entries of the extent requests, the bindings and the phase-set entries. -/
def recLists (r : List W64) : List (W64 × Nat) :=
  let w9 := wd r 9
  [(wd r 6, fld w9 5 0), (wd r 7, fld w9 12 8), (wd r 8, fld w9 21 16)]

/-- Reads the lists of a record; no access where one is longer than its limit or misaligned (R348). -/
def readLists (rd : State → W64 → Nat → Except Fail (List Byte × State)) (r : List W64) (s : State) :
    Except (Option (Fail × W64)) (RecData × State) :=
  let w9 := wd r 9
  if 32 < fld w9 5 0 || 16 < fld w9 12 8 || 32 < fld w9 21 16 then .error none
  else match readEntries rd (wd r 6) (fld w9 5 0) s with
  | .error f => .error f
  | .ok (e, s) => match readEntries rd (wd r 7) (fld w9 12 8) s with
    | .error f => .error f
    | .ok (b, s) => match readEntries rd (wd r 8) (fld w9 21 16) s with
      | .error f => .error f
      | .ok (p, s) => .ok ({ words := r, exts := e, binds := b, phases := p }, s)

/-- Reads a record with its lists. -/
def readRec (rd : State → W64 → Nat → Except Fail (List Byte × State)) (va : W64) (s : State) :
    Except (Option (Fail × W64)) (RecData × State) :=
  match readWords rd va 32 s with
  | .error f => .error (some f)
  | .ok (r, s) => readLists rd r s

/-- What the reading of a record waits for: the bias of its pages and those of its lists (R387). -/
def State.recBias (s : State) (rd : State → W64 → Nat → Except Fail (List Byte × State)) (die asid : Nat) (va : W64) :
    Option (State → State) :=
  match s.unitBias .dispatch die asid false [(va, 256)] with
  | some f => some f
  | none => match readWords rd va 32 s with
    | .ok (r, _) => s.unitBias .dispatch die asid false
        (((recLists r).filter fun l => l.2 != 0 && l.2 ≤ 32).map fun l => (l.1, 16 * l.2))
    | .error _ => none

/-- The dispatch engine's reads of a launch, at their home slices. -/
def launchReader (die asid : Nat) : State → W64 → Nat → Except Fail (List Byte × State) :=
  fun s va n => s.unitRead .dispatch die asid (BitVec.allOnes 64) va n

/-- A task sequencer's reads, performed in its cluster as a load of the task would be, with the task's KPERM (R319). -/
def taskReader (clu asid : Nat) (kperm : W64) : State → W64 → Nat → Except Fail (List Byte × State) :=
  fun s va n => match s.unitXlate .dispatch (dieOfClu clu) asid va .load kperm with
  | .error f => .error f
  | .ok x =>
    let s := s.unitFill .dispatch (dieOfClu clu) asid va.toNat
    if s.atCluster x false then .ok (s.cluRead clu none asid x.pa n)
    else .ok (s.homeAccess x asid n false)

/-! ## Fields and checks (R348, R350) -/

/-- Record bits that must be 0, by word: high and low bit. -/
def recReserved : List (Nat × Nat × Nat) :=
  [(0, 55, 54), (0, 39, 24), (4, 63, 60), (5, 31, 0), (9, 63, 22), (9, 15, 13), (9, 7, 6), (10, 23, 0), (16, 63, 60),
   (17, 63, 32), (17, 28, 27), (17, 24, 16), (19, 31, 0), (20, 55, 0), (21, 63, 32), (22, 63, 0), (23, 63, 0)]

/-- Word i of a record. -/
def RecData.w (r : RecData) (i : Nat) : W64 := wd r.words i
/-- GANG of a record. -/
def RecData.gang (r : RecData) : Bool := bit (r.w 0) 56
/-- SUP of a record. -/
def RecData.sup (r : RecData) : Bool := bit (r.w 0) 58
/-- CGRP of a record. -/
def RecData.group (r : RecData) : Nat := fld (r.w 20) 63 56
/-- TRID of a record. -/
def RecData.trid (r : RecData) : Nat := fld (r.w 0) 23 0
/-- GANGID of a record. -/
def RecData.gangid (r : RecData) : Nat := fld (r.w 10) 63 40
/-- KIND of a binding. -/
def bindKind (b : W64 × W64) : Nat := fld b.1 63 62
/-- Handle of a binding. -/
def bindH (b : W64 × W64) : Nat := fld b.1 61 58
/-- The pipe numbers that a record binds. -/
def RecData.pipes (r : RecData) : List Nat := (r.binds.filter fun b => bindKind b == 2).map fun b => fld b.1 57 50

/-- A phase-set entry from its words (Table 15-4). -/
def phaseOf (p : W64 × W64) : PhaseEnt :=
  { addr := p.1, bytes := fld p.2 63 32, phase := fld p.2 31 28, engine := fld p.2 27 24, write := bit p.2 23 }

/-- Whether a list repeats an element. -/
def repeats : List Nat → Bool
  | [] => false
  | a :: l => l.contains a || repeats l

/-- Whether a launch of a record is refused by the record itself (R348, R358); `asid` is the launch's. -/
def State.recRefused (s : State) (die asid : Nat) (r : RecData) : Bool :=
  let w0 := r.w 0
  let w17 := r.w 17
  fld w0 63 60 != 1 || recReserved.any (fun x => fld (r.w x.1) x.2.1 x.2.2 != 0) ||
  r.exts.any (fun e => fld e.1 11 0 != 0 || fld e.2 63 35 != 0) ||
  r.binds.any (fun b => bindKind b == 3 || fld b.1 49 29 != 0) ||
  r.phases.any (fun p => 9 ≤ fld p.2 27 24 || fld p.2 22 0 != 0) ||
  !(r.w 1 < r.w 2) || r.w 3 < r.w 1 || !(r.w 3 < r.w 2) ||
  fld w0 51 50 < fld w0 53 52 ||
  (bit w17 31 && repeats ((List.range 4).map fun i => fld w17 (2 * i + 1) (2 * i))) ||
  (bit w17 30 && bit w0 59) ||
  (bit w17 29 && (!bkV (s.block die (fld w17 15 8)) || bkAsid (s.block die (fld w17 15 8)) != asid)) ||
  repeats ((r.binds.filter fun b => bindKind b != 0).map bindH) ||
  (r.group != 0 && (tget? (s.die die).groups r.group).isNone)

/-- Whether the members of a gang disagree on a pipe (R348). -/
def pipesClash (rs : List RecData) : Bool :=
  let ps := (rs.map fun r => r.binds.filter fun b => bindKind b == 2).flatten
  ps.any fun a => ps.any fun b => fld a.1 57 50 == fld b.1 57 50 && fld a.1 28 0 != fld b.1 28 0

/-- Whether task j of a launch would have a rank at or above its domain's COUNT (R350). -/
def RecData.rankBad (r : RecData) (j : Nat) : Bool :=
  (List.range 5).any fun i =>
    let w := r.w (11 + i)
    fld w 39 20 != 0 && fld w 39 20 ≤ fld w 19 0 + j

/-! ## The task sequencer (R319, R357, R358) -/

/-- Whether a record may enter a sequencer. -/
def State.seqFull (s : State) (clu : Nat) : Bool := 64 ≤ (s.clu clu).seq.length

/-- Reads the record of an entry of a sequencer, which then counts in its completion group's tree. -/
def State.seqTake (s : State) (clu : Nat) (e : SeqEnt) : Except (Option (Fail × W64)) (RecData × State) :=
  match readRec (taskReader clu e.asid e.kperm) e.va s with
  | .error f => .error f
  | .ok (r, s) => .ok (r, s.treeMove (dieOfClu clu) r.group (some (treeSeq clu)) none)

/-- A record enters a sequencer, and is read where it can be; a read that fails is tried again at its launch (R319). -/
def State.seqEnter (s : State) (clu : Nat) (e : SeqEnt) : State :=
  let add := fun (s : State) (e : SeqEnt) => s.updClu clu fun c => { c with seq := c.seq ++ [e] }
  match s.recBias (taskReader clu e.asid e.kperm) (dieOfClu clu) e.asid e.va with
  | some _ => add s e
  | none => match s.seqTake clu e with
    | .error _ => add s e
    | .ok (r, s) => add s { e with data := some r }

end Sys2Proof.Machine
end

