-- ==== Sys2Proof/Machine/Transport.lean ====
section
/-! DEFINITION. The sending side of a transport: paths and spraying, flows and windows, transport operations and their
completion, routing counters (R115 to R118, R134 to R145, R149 to R151, R175, R176, R309 to R317). -/

namespace Sys2Proof.Machine

/-! ## Paths (R117, R175) -/

/-- A path slot as reset, or a loss of its port's link since, left it (R162, R175). -/
def slotReset (dead : Tab Bool) (i : Nat) : PathSlot :=
  let port := if i < 18 then i else 0
  match tget? dead port with
  | some probed => ⟨port, port, 0, true, probed, 0, true⟩
  | none => ⟨port, port, if i < 18 then 8 else 0, false, false, 0, false⟩

/-- What a transport keeps of a peer; after reset WIN 262,144, GAP 0, RTO 64 (R176). A fabric multicast group stands as a peer at
8,192 and above (R139). -/
def Transport.peer (t : Transport) (p : Nat) : Peer := tget ⟨[], 0, 0, 262144, 0, 64, none⟩ t.peers p

/-- The RTO interval of a peer in cycles, which is also its retry backoff (R176, R466). -/
def Transport.rtoOf (t : Transport) (p : Nat) : Nat := (t.peer p).rto * 1024

/-- A path slot of a peer. -/
def Transport.slot (t : Transport) (p i : Nat) : PathSlot := (tget? (t.peer p).slots i).getD (slotReset t.dead i)

/-- Changes a path slot. -/
def Transport.updSlot (t : Transport) (p i : Nat) (f : PathSlot → PathSlot) : Transport :=
  let q := t.peer p
  { t with peers := tset t.peers p { q with slots := tset q.slots i (f (t.slot p i)) } }

/-- Whether every weight of a peer is 0. -/
def Transport.noPath (t : Transport) (p : Nat) : Bool := (List.range 64).all fun i => (t.slot p i).weight == 0

/-- The next path of a peer's weighted round robin, and the pointer after it (R117). -/
def Transport.nextPath (t : Transport) (p : Nat) : Option (Nat × Transport) :=
  let q := t.peer p
  let i0 := 64 * q.k + q.s
  ((List.range 960).map fun j => (i0 + j) % 960).find? (fun i => i / 64 < (t.slot p (i % 64)).weight) |>.map fun i =>
    let n := (i + 1) % 960
    (i % 64, { t with peers := tset t.peers p { q with k := n / 64, s := n % 64 } })

/-- The lowest-numbered slot of nonzero weight (R175). -/
def Transport.lowPath (t : Transport) (p : Nat) : Option Nat := (List.range 64).find? fun i => (t.slot p i).weight != 0

/-! ## Flows and packets -/

/-- The flow of a communication context's bulk packets to a peer. -/
def rudFlow (asid peer : Nat) : Nat := 2 ^ 48 + asid * 131072 + peer
/-- The flow of its credits, notices and flushes. -/
def rodFlow (asid peer : Nat) : Nat := 2 ^ 49 + asid * 131072 + peer
/-- The flow of its message headers, which are alone on it, so that their numbers have no gap (R142; log 57). -/
def hdrFlow (asid peer : Nat) : Nat := 2 ^ 50 + asid * 131072 + peer

/-- A flow. -/
def Transport.flow (t : Transport) (f : Nat) : Flow := tget (Flow.new 0 0 false) t.flows f

/-- Changes a flow that exists. -/
def Transport.updFlow (t : Transport) (f : Nat) (g : Flow → Flow) : Transport :=
  match tget? t.flows f with
  | none => t
  | some x => { t with flows := tset t.flows f (g x) }

/-- Queues a packet on a flow, which its first packet opens. It carries the job identifier of its communication context (R464); a context
that was given none sends 0, the model's choice (log 63). -/
def State.queueOn (s : State) (die asid peer fid : Nat) (rod : Bool) (k : OutPkt) : State :=
  let k := { k with job := (s.commOf asid).job.getD 0 }
  s.updTx die fun t => { t with flows := tset t.flows fid ((tget (Flow.new peer asid rod) t.flows fid).add k) }

/-- Queues a packet on the ordered or the bulk flow of a communication context to a peer. -/
def State.queuePkt (s : State) (die asid peer : Nat) (rod : Bool) (k : OutPkt) : State :=
  s.queueOn die asid peer (if rod then rodFlow asid peer else rudFlow asid peer) rod k

/-- A packet that carries no chunk: OP 2 with every other word 0, and what it says in its semantic header (R118, log 26). -/
def semPkt (opid : Nat) (sem : List W64) (payload : List Byte) : OutPkt :=
  { newPkt 0 opid (mkW [(1, 60), (2, 56), (1, 51), (payload.length, 0)]) 0 0 0 payload with sem := sem }

/-- Bytes sent to a peer and not acknowledged (R176). -/
def Transport.inFlight (t : Transport) (p : Nat) : Nat :=
  (t.flows.map fun f => if f.2.peer = p then ((f.2.pkts.filter fun k => k.sent && !k.acked).map (·.payload.length)).sum
    else 0).sum

/-- The path that a packet of a flow takes next: the flow's one path for ROD, the round robin otherwise (R117). -/
def Transport.pathFor (t : Transport) (fid : Nat) : Option (Nat × Transport) :=
  let f := t.flow fid
  if f.rod then
    if (t.slot f.peer f.slot).weight != 0 then some (f.slot, t)
    else (t.lowPath f.peer).map fun i => (i, t.updFlow fid fun x => { x with slot := i })
  else t.nextPath f.peer

/-- Changes the packet of a sequence number. -/
def Flow.updPkt (f : Flow) (psn : Nat) (g : OutPkt → OutPkt) : Flow := { f with pkts := mapIf (·.psn == psn) g f.pkts }

/-- Puts a packet of a flow on its next path; false where no path has weight. -/
def Transport.transmit (t : Transport) (fid psn now : Nat) : Transport × Bool :=
  match t.pathFor fid with
  | none => (t, false)
  | some (i, t) =>
    let p := (t.flow fid).peer
    let t := { t with peers := tset t.peers p { t.peer p with last := some now } }
    (t.updFlow fid fun f => f.updPkt psn fun k =>
      { k with slot := i, sent := true, wire := true, since := now, backoff := false, missing := false }, true)

/-! ## Completion (R134, R135, R141, R146, R151) -/

/-- Marks an operation complete with a status; its packets are not sent again, later answers are ignored, and no header is matched
to it any more (R178). -/
def State.endOp (s : State) (die opid status fkind : Nat) (addr : W64) : State :=
  let s : State := { s with comm := s.comm.map fun c => (c.1, { c.2 with posted := c.2.posted.filter fun p =>
    !(p.opid == opid && p.die == die) }) }
  s.updTx die fun t =>
    let done := fun (o : TxOp) => { o with ready := true, status := status, fkind := fkind, addr := addr, waitPg := none }
    { t with ops := mapIf (fun o => o.opid == opid && !o.ready) done t.ops
             flows := t.flows.map fun f => (f.1, { f.2 with pkts := f.2.pkts.filter fun k => k.opid != opid || k.opid == 0 }) }

/-- The trap access class of a global access. -/
def GAcc.acc (a : GAcc) : Nat := if a.op = 3 then 1 else if a.op = 4 then 2 else if a.load then 3 else 4

/-- Clears the scoreboard entries that a global access would fill, unwritten. -/
def State.clearGlobal (s : State) (a : GAcc) : State :=
  match s.whereIs a.trid with
  | some w => s.updPipe w fun p => { p with sb := p.sb.filter fun e => e.ready || e.acc != a.id }
  | none => s

/-- Ends a global access with UNREACH (R151): a load's scoreboard entries are cleared unwritten, the entry that a store sends again
is discarded, the releases that wait for it are not performed, and the context is suspended at its next boundary. -/
def State.unreach (s : State) (a : GAcc) : State :=
  let s := if a.load then s.clearGlobal a else s
  let s := match a.lees with
    | some st => s.leesLost a st
    | none => s
  s.deferTo a.trid (trapDeferred 6 a.acc 6 a.va false none)

/-- Ends the first global access of a flow, or all of them, with UNREACH. -/
def State.unreachFlow (s : State) (die fid : Nat) (all : Bool) : State :=
  let f := (s.die die).tx.flow fid
  let gone := if all then f.accs else f.accs.take 1
  let ids := gone.map (·.opid)
  let s := s.updTx die fun t => t.updFlow fid fun f =>
    { f with accs := f.accs.drop gone.length, pkts := f.pkts.filter fun k => !(ids.contains k.opid) }
  gone.foldl State.unreach s

/-- Completes with UNREACH whatever waits for a peer that has no path: the global accesses and packets of its flows, and the started
operations that it takes part in (R117, R151). -/
def State.cutOff (s : State) (die peer : Nat) : State :=
  if !(s.die die).tx.noPath peer then s
  else
    let fl := (s.die die).tx.flows.filter fun f => f.2.peer == peer
    let s := fl.foldl (fun s f => s.unreachFlow die f.1 true) s
    let ids := ((fl.map fun f => (f.2.pkts.filter fun k => !k.acked).map (·.opid)).flatten ++
      ((s.die die).tx.ops.filter fun o => o.started && !o.ready && o.peers.contains peer).map (·.opid)).eraseDups
    let s := ids.foldl (fun s i => if i = 0 then s else s.endOp die i 7 0 0) s
    s.updTx die fun t => { t with flows := t.flows.map fun f =>
      if f.2.peer = peer then (f.1, { f.2 with pkts := [] }) else f }

/-- Cuts off every peer that has no path and something open (R117). -/
def State.cutAll (s : State) (die : Nat) : State :=
  let t := (s.die die).tx
  let peers := (((t.flows.filter fun f => !f.2.accs.isEmpty || !f.2.pkts.isEmpty).map (·.2.peer)) ++
    ((t.ops.filter fun o => o.started && !o.ready).map (·.peers)).flatten).eraseDups
  peers.foldl (fun s p => s.cutOff die p) s

/-- Whether a packet to a peer may start now: its window has room, and GAP cycles have passed since the last start (R176). -/
def Transport.mayStart (t : Transport) (p now : Nat) : Bool :=
  let q := t.peer p
  t.inFlight p < q.win && q.last.all fun n => n + q.gap ≤ now

/-- Sends what a flow has to send (R176), the packets that wait for their backoff apart. -/
def State.pumpFlow (s : State) (die fid : Nat) : State :=
  let f := (s.die die).tx.flow fid
  (f.pkts.filter fun k => !k.sent && !k.backoff).foldl (fun s k =>
    if (s.die die).tx.mayStart f.peer s.cycle then s.updTx die fun t => (t.transmit fid k.psn s.cycle).1 else s) s

/-! ## Transport descriptors (Tables 13-8, 13-9) -/

/-- PEER. -/
def tdPeer (d : List W64) : Nat := fld (wd d 1) 63 51
/-- LKIND. -/
def tdLkind (d : List W64) : Bool := bit (wd d 1) 50
/-- FMT. -/
def tdFmt (d : List W64) : Nat := fld (wd d 1) 49 46
/-- CHB. -/
def tdChb (d : List W64) : Nat := fld (wd d 1) 45 33
/-- EPOCH. -/
def tdEpoch (d : List W64) : Nat := fld (wd d 1) 31 24
/-- HANDLE. -/
def tdHandle (d : List W64) : Nat := fld (wd d 1) 23 0
/-- NCH. -/
def tdNch (d : List W64) : Nat := fld (wd d 3) 63 52
/-- TOKENS. -/
def tdTokens (d : List W64) : Nat := fld (wd d 3) 51 32
/-- ETAG. -/
def tdEtag (d : List W64) : Nat := fld (wd d 3) 31 24
/-- ETEN. -/
def tdEten (d : List W64) : Bool := bit (wd d 3) 23
/-- CTREN and CTR. -/
def tdCtr (d : List W64) : Option Nat := if bit (wd d 3) 22 then some (fld (wd d 3) 21 19) else none
/-- GROUP. -/
def tdGroup (d : List W64) : Nat := fld (wd d 3) 15 0

/-! ## Channels (R137) -/

/-- Words of channel c. -/
def Comm.chan (m : Comm) (c : Nat) : List W64 := (List.range 4).map fun i => tget 0 m.chans (4 * c + i)
/-- V of a channel. -/
def chV (c : List W64) : Bool := bit (wd c 0) 63
/-- KIND. -/
def chKind (c : List W64) : Nat := fld (wd c 0) 62 60
/-- GROUP. -/
def chGroup (c : List W64) : Nat := fld (wd c 0) 59 44
/-- NPEER. -/
def chNpeer (c : List W64) : Nat := fld (wd c 0) 43 32
/-- DEPTH. -/
def chDepth (c : List W64) : Nat := fld (wd c 0) 31 24
/-- FMT. -/
def chFmt (c : List W64) : Nat := fld (wd c 0) 23 20
/-- ELEMS. -/
def chElems (c : List W64) : Nat := fld (wd c 2) 63 32
/-- HANDLE. -/
def chHandle (c : List W64) : Nat := fld (wd c 2) 31 8
/-- MCOK. -/
def chMcok (c : List W64) : Bool := bit (wd c 3) 63
/-- MCGRP. -/
def chMcgrp (c : List W64) : Nat := fld (wd c 3) 62 47

/-! ## Collectives (R140, R141) -/

/-- A collective group. -/
def Comm.coll (m : Comm) (g : Nat) : Coll := tget ⟨0, false, [], [], [], []⟩ m.groups g
/-- Changes a group. -/
def Comm.updColl (m : Comm) (g : Nat) (f : Coll → Coll) : Comm := { m with groups := tset m.groups g (f (m.coll g)) }

/-- A group comes to know peers. -/
def Coll.knows (c : Coll) (ps : List Nat) : Coll := { c with peers := (c.peers ++ ps).eraseDups }

/-- GDIG of an operation (R140). The packets of one that is no collective carry GROUP 0 and the digest of its fields all the same, the
model's choice (log 63). -/
def gdigOf (group kind fmt elems : Nat) : Nat :=
  (mix64 (BitVec.ofNat 64 group) (mkW [(kind, 61), (fmt, 57), (elems % 2 ^ 32, 0)])).toNat % 65536

/-! ## Accesses of an operation (R311) -/

/-- The context that an operation belongs to, while its task is there. -/
def State.opHome (s : State) (o : TxOp) : Option At :=
  if (s.ctx ⟨o.core, o.ctx⟩).trid = some o.trid then some ⟨o.core, o.ctx⟩ else none

/-- Translation of an operation's access: with its context's extents, which a saved task keeps (R59, R311). -/
def State.opXlate (s : State) (o : TxOp) (a : W64) (n : Nat) (need : Need) : Except (Fail × W64) Xl :=
  match s.opHome o with
  | some w => s.engineXlate w o.asid o.kperm a n need
  | none =>
    let ext := (tget? s.tasks o.trid).bind fun t => (t.extents.find? fun p => p.2.covers a.toNat n).map (·.2)
    match ext with
    | none => match s.unitXlate .transport (dieOf o.core) o.asid a need o.kperm with
      | .error f => .error (f, a)
      | .ok x => .ok x
    | some e =>
      if isGlobal a then .error (.page 3, a)
      else match judged (e.xl a.toNat) need o.kperm with
        | .error f => .error (f, a)
        | .ok x => if isDevFrame x.pa then .error (.page 5, a)
          else if isHostHomed x.pa && s.link.fenced then .error (.page Config.fencedKind.toNat, a) else .ok x

/-- Pieces of a byte range, split at 32-byte boundaries. -/
def unitParts (a : W64) : Nat → Nat → List (W64 × Nat)
  | 0, _ => []
  | f + 1, n =>
    if n = 0 then [] else
    let k := min n (32 - a.toNat % 32)
    (a, k) :: unitParts (a + BitVec.ofNat 64 k) f (n - k)

/-- What the translation of an operation's access leaves in the TLBs (R60). -/
def State.opFill (s : State) (o : TxOp) (a : W64) : State :=
  match s.opHome o with
  | some w => s.coreFill w.core o.asid a.toNat
  | none => s.unitFill .transport (dieOf o.core) o.asid a.toNat

/-- One piece that an operation reads, from memory or a buffer: at the place that a copy engine of the core it issued on would read it,
whether its task is there or not, so that it sees what its context stored before (R311, Table 14-1). -/
def State.opPiece (s : State) (o : TxOp) (buf : Bool) (a : W64) (n : Nat) : Except (Fail × W64) (List Byte × State) :=
  if buf then .ok (s.bufRead (clusterOf o.core) o.asid a n)
  else match s.opXlate o a n .load with
    | .error f => .error f
    | .ok x => .ok ((s.opFill o a).engineGet ⟨o.core, o.ctx⟩ x o.asid n)

/-- One piece that an operation writes. -/
def State.opPut (s : State) (o : TxOp) (buf : Bool) (a : W64) (bs : List Byte) : Except (Fail × W64) State :=
  if buf then .ok (s.bufWrite (clusterOf o.core) o.asid a bs)
  else match s.opXlate o a bs.length .store with
    | .error f => .error f
    | .ok x => .ok ((s.opFill o a).enginePut ⟨o.core, o.ctx⟩ x o.asid bs)

/-- Reads n bytes for an operation. -/
def State.opRead (s : State) (o : TxOp) (buf : Bool) (a : W64) (n : Nat) : Except (Fail × W64) (List Byte × State) :=
  (unitParts a (n + 1) n).foldl (fun acc p => match acc with
    | .error f => .error f
    | .ok (bs, s) => match s.opPiece o buf p.1 p.2 with
      | .error f => .error f
      | .ok (b, s) => .ok (bs ++ b, s)) (.ok ([], s))

/-- Writes bytes for an operation, piece by piece: the state with what was written, and the failure. -/
def State.opWrite (s : State) (o : TxOp) (buf : Bool) (a : W64) (bs : List Byte) : State × Option (Fail × W64) :=
  (unitParts a (bs.length + 1) bs.length).foldl (fun acc p => match acc.2 with
    | some f => (acc.1, some f)
    | none => match acc.1.opPut o buf p.1 ((bs.drop (p.1 - a).toNat).take p.2) with
      | .error f => (acc.1, some f)
      | .ok s => (s, none)) (s, none)

/-! ## Starting an operation (R312 to R315) -/

/-- An operation that has not completed. -/
def State.opOf (s : State) (die opid : Nat) : Option TxOp := (s.die die).tx.ops.find? fun o => o.opid == opid

/-- Changes an operation. -/
def State.updOp (s : State) (die opid : Nat) (f : TxOp → TxOp) : State :=
  s.updTx die fun t => { t with ops := mapIf (fun o => o.opid == opid) f t.ops }

/-- W0 of a data packet (Table 06-2). -/
def dataW0 (op fmt : Nat) (last mc : Bool) (handle epoch plen : Nat) : W64 :=
  mkW [(1, 60), (op, 56), (fmt, 52), (last.toNat, 51), (mc.toNat, 50), (handle, 24), (epoch, 16), (plen, 0)]

/-- W3 of a packet. -/
def TxOp.w3 (o : TxOp) : W64 := mkW [(o.group, 48), (o.gseq % 2 ^ 32, 16), (o.gdig, 0)]

/-- The channel that an operation names: TXMC in xb, CHSEND and CHRECV in their descriptor. -/
def State.opChan (s : State) (o : TxOp) : List W64 :=
  (s.commOf o.asid).chan (if o.kind = 3 then fld o.xb 7 0 else fld (wd o.words 1) 7 0)

/-- The chunks of an operation: payload offset and bytes, by number. -/
def State.opChunks (s : State) (o : TxOp) : List (Nat × Nat) :=
  if o.kind ≤ 3 then (List.range (tdNch o.words)).map fun i => (i * tdChb o.words, tdChb o.words)
  else
    let c := s.opChan o
    let n := elemBytes (chFmt c) (chElems c)
    let k := Config.chanChunk.toNat + 1
    (List.range ((n + k - 1) / k)).map fun i => (i * k, min k (n - i * k))

/-- Whether an operation's read of bytes has to wait for what its context did before: acquires that are not performed, its lees entries
on the bytes, in a core's log or in its image, and releases held at their lines (R311, R333, R343). -/
def State.opHeld (s : State) (o : TxOp) (rs : List (W64 × Nat)) : Bool :=
  let log : List Lees := match s.opHome o, tget? s.tasks o.trid with
    | some w, _ => (s.core w.core).lees.filter fun l => l.ctx == w.ctx
    | none, some t => if t.saved then s.awayEnts t else (s.core t.core).lees.filter fun l => l.ctx == t.ctx
    | none, none => []
  (s.openAccs o.trid).any (·.acq) || log.any (·.acq) ||
  rs.any (fun r => log.any fun l => l.overlaps o.asid r.1 r.2) ||
  (s.hasHeld o.trid && rs.any fun r => (List.range (r.2 / 128 + 2)).any fun i =>
    match s.opXlate o (r.1 + BitVec.ofNat 64 (min (128 * i) (r.2 - 1))) 1 .none with
    | .ok x => s.heldOverlap o.trid (x.pa / 128 * 128) 128
    | .error _ => false)

/-- The bias that an operation's accesses wait for, at their places (R387). -/
def State.opBias (s : State) (o : TxOp) (write : Bool) (rs : List (W64 × Nat)) : Option (State → State) :=
  if !s.coherentHost then none
  else rs.findSome? fun r => (List.range (r.2 / 128 + 2)).findSome? fun i =>
    let va := r.1 + BitVec.ofNat 64 (min (128 * i) (r.2 - 1))
    (s.unitWalkWait .transport (dieOf o.core) o.asid va).or (match s.opXlate o va 1 .none with
      | .ok x => s.placeWait (clusterOf o.core) x false write 1
      | .error _ => none)

/-- What the accesses of an operation wait for: what its context did before to their bytes (R311), and the bias of their pages
(R387). -/
def State.opWaits (s : State) (o : TxOp) (rs : List (W64 × Nat)) : Option (State → State) :=
  if s.opHeld o rs then some id else s.opBias o (o.kind == 9) rs

/-- Whether an operation is a message: a CHSEND on a channel of KIND 0 (R142). -/
def State.isMsg (s : State) (o : TxOp) : Bool := o.kind == 4 && chKind (s.opChan o) == 0

/-- Whether an operation is a multicast (R139). -/
def State.isMcast (s : State) (o : TxOp) : Bool := o.kind == 3 || (o.kind == 4 && chKind (s.opChan o) == 1)

/-- The memory that an operation accesses at its start: its chunks, the peer list of its channel, the words of a CTRSNAP. -/
def State.opRanges (s : State) (o : TxOp) : List (W64 × Nat) :=
  let c := s.opChan o
  (if o.kind = 3 || o.kind = 4 || o.kind = 8 then [(wd c 1, 2 * chNpeer c)] else []) ++ (if o.kind = 9 then [(wd o.words 0, 1024)] else []) ++
  (if o.kind = 1 || 4 < o.kind || tdLkind o.words then [] else
    (s.opChunks o).map fun r => (wd o.words 0 + BitVec.ofNat 64 r.1, r.2))

/-- Reads every chunk of an operation. -/
def State.readChunks (s : State) (o : TxOp) : Except (Fail × W64) (List (List Byte) × State) :=
  (s.opChunks o).foldl (fun acc c => match acc with
    | .error f => .error f
    | .ok (l, s) => match s.opRead o (tdLkind o.words) (wd o.words 0 + BitVec.ofNat 64 c.1) c.2 with
      | .error f => .error f
      | .ok (b, s) => .ok (l ++ [b], s)) (.ok ([], s))

/-- The device indices of a channel's peers (Table 06-8), in rank order. -/
def State.readPeers (s : State) (o : TxOp) (c : List W64) : Except (Fail × W64) (List Nat × State) :=
  (List.range (chNpeer c)).foldl (fun acc i => match acc with
    | .error f => .error f
    | .ok (l, s) => match s.opPiece o false (wd c 1 + BitVec.ofNat 64 (2 * i)) 2 with
      | .error f => .error f
      | .ok (b, s) => .ok (l ++ [ofBytes b % 8192], s)) (.ok ([], s))

/-- The peers that an operation sends to. -/
def State.opPeers (s : State) (o : TxOp) : Except (Fail × W64) (List Nat × State) :=
  if o.kind = 0 || o.kind = 1 || o.kind = 2 then .ok ([tdPeer o.words], s)
  else if o.kind = 3 || o.kind = 4 then
    match s.readPeers o (s.opChan o) with
    | .error f => .error f
    | .ok (l, s) =>
      if s.isMsg o && tdPeer o.words != 0x1FFF then .ok ((l.drop (tdPeer o.words)).take 1, s) else .ok (l, s)
  else .ok ([], s)

/-- Packet i of an operation that sends data: operation code, format, W1 and W2, handle and epoch (R138, R312, R313). -/
def State.opPacket (s : State) (o : TxOp) (i : Nat) : Nat × Nat × W64 × W64 × Nat × Nat :=
  let d := o.words
  let c := wd d 2
  let coord := mkW [(fld c 63 16, 16), ((fld c 15 0 + i) % 65536, 0)]
  match o.kind with
  | 0 => (0, tdFmt d, coord, 0, tdHandle d, tdEpoch d)
  | 2 => (1, tdFmt d, coord, mkW [(fld o.xb 63 52, 52), (o.trid % 2 ^ 24, 28), (fld o.xb 27 8, 8), (i, 0)], tdHandle d,
      tdEpoch d)
  | 3 => (0, tdFmt d, coord, 0, chHandle (s.opChan o), tdEpoch d)
  | _ =>
    let ch := s.opChan o
    (if chKind ch = 2 then 1 else 0, chFmt ch, Config.chanCoord o.gseq i,
      if chKind ch = 2 then Config.chanTag o.gseq i else 0, chHandle ch, (Config.chanEpoch o.gseq).toNat)

/-- The outstanding messages of a channel to a peer (R138). -/
def Comm.outstanding (m : Comm) (chan peer : Nat) : Nat := tget 0 m.credits (chan * 8192 + peer)

/-- The channel number of a CHSEND or CHRECV. -/
def TxOp.chanNo (o : TxOp) : Nat := fld (wd o.words 1) 7 0

/-- Whether a CHSEND must wait for credits (R138). -/
def State.creditWait (s : State) (asid chan : Nat) (peers : List Nat) : Bool :=
  let m := s.commOf asid
  peers.any fun p => chDepth (m.chan chan) ≤ m.outstanding chan p

/-- Packet i of an operation that sends data: its chunk's bytes, in a message marked with their place in it (R142). -/
def State.dataPkt (s : State) (o : TxOp) (last : Bool) (i : Nat) (bs : List Byte) : OutPkt :=
  let k := s.opPacket o i
  let w0 := dataW0 k.1 k.2.1 last (s.isMcast o) k.2.2.2.2.1 k.2.2.2.2.2 bs.length
  let off := (((s.opChunks o)[i]?).map (·.1)).getD 0
  { newPkt 0 o.opid w0 k.2.2.1 k.2.2.2.1 o.w3 bs with
    sem := if s.isMsg o then [BitVec.ofNat 64 o.opid, BitVec.ofNat 64 off] else [] }

/-- Queues the packets of an operation that sends data: a copy to each of its peers, or one to the fabric's multicast group, which
every peer acknowledges (R139). A message sends its header on the ordered flow, and its payload behind it when it is at most 16 KiB
(R143); the request that its receive sends counts as a packet (R144). -/
def State.sendData (s : State) (die : Nat) (o : TxOp) (peers : List Nat) (chunks : List (List Byte)) : State :=
  let ch := s.opChan o
  let msg := s.isMsg o
  let mc := s.isMcast o
  let n := (chunks.map List.length).sum
  let data := if msg && 16384 < n then [] else chunks
  let one := mc && chMcok ch
  let s := (if one then [8192 + chMcgrp ch] else peers).foldl (fun s p =>
    let s := if msg then s.queueOn die o.asid p (hdrFlow o.asid p) true
        (semPkt o.opid [wd o.words 2, BitVec.ofNat 64 n, BitVec.ofNat 64 o.opid] []) else s
    data.zipIdx.foldl (fun s c =>
      let k := s.dataPkt o (c.2 + 1 == data.length) c.2 c.1
      s.queuePkt die o.asid p false { k with left := if one then peers.length else 1 }) s) s
  let s := if o.kind = 4 then s.updComm o.asid fun m =>
      { m with credits := peers.foldl (fun t p => tset t (o.chanNo * 8192 + p) (m.outstanding o.chanNo p + 1)) m.credits }
    else s
  let s := s.updTask o.trid fun t => { t with writes := t.writes ++ peers.map fun p => (p, o.mark) }
  let s := if o.group = 0 then s else s.updComm o.asid fun m => m.updColl o.group fun c => c.knows peers
  let s := if mc && !one then s.updTx die fun t => { t with mcdeg := true, mcdegr := satAdd 32 t.mcdegr 1 } else s
  s.updOp die o.opid fun x =>
    { x with started := true, peers := peers, waitPg := none
             total := peers.length * (data.length + (if msg then 2 else 0)) }

/-- What a failure of a local access, a read or a write, does to an operation: a page request, or FAULT (R66, R103, R134). -/
def State.opFail (s : State) (die : Nat) (o : TxOp) (f : Fail × W64) (write : Bool) : State :=
  if f.1.pauses o.waitPg then
    let new := o.waitPg.isNone
    let s := s.updOp die o.opid fun x => { x with waitPg := some { asid := o.asid, va := f.2, declined := false } }
    if new then s.pageRequest die o.asid f.2 write.toNat else s
  else s.endOp die o.opid 1 f.1.fkind f.2

/-- Whether a device index is outside the global window of an ASID (R50, R310). -/
def State.peersBad (s : State) (die asid : Nat) (peers : List Nat) : Bool :=
  peers.any fun p => fld (s.asidEnt die asid).2 12 0 < p

/-- The start of an operation that has issued: its bytes are read and its packets queued (R311 to R315). -/
def State.startOp (s : State) (die : Nat) (o : TxOp) : State :=
  match s.opWaits o (s.opRanges o) with
  | some f => f s
  | none =>
  if o.kind ≤ 4 then
    match s.opPeers o with
    | .error f => s.opFail die o f false
    | .ok (peers, s) =>
      if o.kind = 1 then
        (s.queuePkt die o.asid (tdPeer o.words) false (semPkt o.opid [BitVec.ofNat 64 (fld (wd o.words 2) 46 0),
          BitVec.ofNat 64 (tdNch o.words * tdChb o.words), BitVec.ofNat 64 o.opid] [])).updOp die o.opid fun x =>
            { x with started := true, peers := peers, total := 2 }
      else if peers.isEmpty || s.peersBad die o.asid peers then s.endOp die o.opid 1 3 0
      else if o.kind = 4 && s.creditWait o.asid o.chanNo peers then s
      else match s.readChunks o with
        | .error f => s.opFail die o f false
        | .ok (chunks, s) => s.sendData die o peers chunks
  else if o.kind = 9 then
    let bs := ((o.words.drop 1).map fun w => toBytes 8 w.toNat).flatten
    match s.opWrite o false (wd o.words 0) bs with
    | (s, none) => (s.updOp die o.opid fun x => { x with started := true, bytes := 1024 }).endOp die o.opid 0 0 0
    | (s, some f) => s.opFail die o f true
  else s.updOp die o.opid fun x => { x with started := true }

/-- Whether an operation may start now: earlier ones of its context to a peer of its have (R311), and a page that it waits for
is there. -/
def State.mayStart (s : State) (die : Nat) (o : TxOp) : Bool :=
  let before := (s.die die).tx.ops.takeWhile fun x => x.opid != o.opid
  !o.started && !o.ready && (o.waitPg.map (·.declined)).getD true &&
  (5 ≤ o.kind || !(before.any fun x => x.core == o.core && x.ctx == o.ctx && x.trid == o.trid && x.kind < 5 &&
    !x.started && !x.ready))

/-! ## Flushes (R135, R136) -/

/-- ALL of a TXFLUSH. -/
def TxOp.all (o : TxOp) : Bool := fld (wd o.words 0) 0 0 == 1

/-- Whether an operation is one to a device (R135): the device that it names, for one on a channel any until its peers are known; a
receive is one to the device that it receives from; a CTRSNAP is one to none. -/
def TxOp.to (o : TxOp) (dev : Nat) : Bool :=
  match o.kind with
  | 0 => tdPeer o.words == dev
  | 1 => tdPeer o.words == dev
  | 2 => tdPeer o.words == dev
  | 5 => o.all || fld o.xb 12 0 == dev
  | 6 => o.all || fld o.xb 12 0 == dev
  | 7 => tdPeer o.words == dev || o.peers.contains dev
  | 9 => false
  | _ => o.peers.isEmpty || o.peers.contains dev

/-- Whether everything that a flush waits for has completed: the earlier transport operations of its context, with their records, and
its global stores and atomics (R135). -/
def State.flushClear (s : State) (o : TxOp) : Bool :=
  let dev := fld o.xb 12 0
  !(s.dies.any fun d => d.2.tx.ops.any fun x => x.trid == o.trid && x.mark < o.mark && (o.all || x.to dev)) &&
  !((s.openAccs o.trid).any fun a => a.id < o.mark && a.op != 3 && (o.all || fld a.va 59 47 == dev))

/-- Completes a flush whose earlier operations are complete, or sends FLUSHP to its targets (R136). A FLUSHP counts as a
packet of the flush. -/
def State.stepFlush (s : State) (die : Nat) (o : TxOp) : State :=
  if !s.flushClear o then s
  else if o.kind = 5 then s.endOp die o.opid 0 0 0
  else if o.total != 0 then s
  else
    let dev := fld o.xb 12 0
    let written := ((((tget? s.tasks o.trid).map (·.writes)).getD []).filter fun p => p.2 < o.mark).map (·.1)
    let targets := if o.all then written.eraseDups else [dev]
    if targets.isEmpty then s.endOp die o.opid 0 0 0
    else
      let s := targets.foldl (fun s p => s.queuePkt die o.asid p true (newPkt 0 o.opid (dataW0 7 0 true false 0 0 0) 0 0 0 [])) s
      s.updOp die o.opid fun x => { x with total := targets.length, peers := targets }

/-! ## Acknowledgements (R135, R466) -/

/-- Drops the acknowledged packets at the front of a flow. -/
def Flow.trim (f : Flow) : Flow := { f with pkts := f.pkts.dropWhile (·.acked) }

/-- Counts an acknowledged packet for its operation, which completes with its last, but for one that waits for data: TRUNC for a
message that its receive cut short (R144). -/
def State.opAcked (s : State) (die opid bytes : Nat) (short : Bool) : State :=
  match (s.die die).tx.ops.find? fun o => o.opid == opid && !o.ready with
  | none => s
  | some o =>
    let status := if o.status != 0 then o.status else if short then 10 else 0
    let s := s.updOp die opid fun x => { x with acked := x.acked + 1, bytes := x.bytes + bytes, status := status }
    if o.started && o.acked + 1 = o.total && !(o.kind == 1 || o.kind == 7 || o.kind == 8) then s.endOp die opid status 0 0 else s

/-! ## Routing counters (R145) -/

/-- Adds an operation's tokens to its routing counter, at issue. -/
def State.addTokens (s : State) (die : Nat) (d : List W64) : State :=
  if tdEten d then s.updTx die fun t => { t with route := tset t.route (tdEtag d) (satAdd 32 (tget 0 t.route (tdEtag d)) (tdTokens d)) }
  else s

end Sys2Proof.Machine
end

