-- ==== Sys2Proof/Machine/Triggers.lean ====
section
/-! DEFINITION. Issuing a transport operation, messages and their matching, counters and the trigger unit, and the completion
of an operation (R134, R138, R140 to R148, R310, R315 to R317). -/

namespace Sys2Proof.Machine

/-! ## Collective operations (R140, R141) -/

/-- A broken notice or a credit to a peer, on its ordered flow: the group and 1, or the channel and 0 (log 26). -/
def State.control (s : State) (die asid peer n kind : Nat) : State :=
  s.queuePkt die asid peer true (semPkt 0 [BitVec.ofNat 64 n, BitVec.ofNat 64 kind] [])

/-- The channels of a communication context that are valid and of a collective group. -/
def Comm.chansOf (m : Comm) (g : Nat) : List Nat :=
  (List.range 256).filter fun n => chV (m.chan n) && chGroup (m.chan n) == g && chKind (m.chan n) != 0

/-- The peers of a channel, as the transport reads its list; the failure of a read, and where. -/
def State.chanPeers (s : State) (die asid : Nat) (c : List W64) : Except (Fail × W64) (List Nat × State) :=
  (List.range (chNpeer c)).foldl (fun acc i => match acc with
    | .error f => .error f
    | .ok (l, s) =>
      let a := wd c 1 + BitVec.ofNat 64 (2 * i)
      match s.unitRead .transport die asid (BitVec.allOnes 64) a 2 with
      | .error f => .error (f, a)
      | .ok (b, s) => .ok (l ++ [ofBytes b % 8192], s)) (.ok ([], s))

/-- Sends a broken notice to each of some peers. -/
def State.tellPeers (s : State) (die asid g : Nat) (ps : List Nat) : State :=
  ps.foldl (fun (s : State) p => s.control die asid p g 1) s

/-- Tells the peers of a channel of a broken group that have not been told: those that its list names, once the transport can read it; a
page that is not present is requested, when `ask` says so, and waited for (R66, R141). -/
def State.tellChan (s : State) (die asid g : Nat) (ask : Bool) (n : Nat) : State :=
  match s.chanPeers die asid ((s.commOf asid).chan n) with
  | .ok (ps, s) =>
    let new := ps.eraseDups.filter fun p => !(((s.commOf asid).coll g).peers.contains p)
    (s.tellPeers die asid g new).updComm asid fun m => m.updColl g fun c => c.knows new
  | .error f =>
    if f.1 != .page 0 then s
    else
      let s := s.updComm asid fun m => m.updColl g fun c => { c with tell := c.tell ++ [(die, n)] }
      if ask then s.pageRequest die asid f.2 0 else s

/-- Tells the peers of the channels that a die has still to read, of every broken group (R141). -/
def State.tellRest (s : State) (die : Nat) : State :=
  s.comm.foldl (fun (s : State) m => m.2.groups.foldl (fun (s : State) g =>
    let mine := g.2.tell.filter fun p => p.1 == die
    if mine.isEmpty then s
    else
      let s := s.updComm m.1 fun x => x.updColl g.1 fun c => { c with tell := c.tell.filter fun p => p.1 != die }
      (mine.map (·.2)).foldl (fun (s : State) n => s.tellChan die m.1 g.1 false n) s) s) s

/-- Marks a group broken (R141): its open operations complete with COLLBROKEN, and with `tell` every peer of the group is sent a
notice: those that its operations and its packets have named, and those of its channels. -/
def State.breakGroup (s : State) (asid g : Nat) (tell : Option Nat) : State :=
  if ((s.commOf asid).coll g).broken then s
  else
    let s := s.updComm asid fun m => m.updColl g fun c => { c with broken := true }
    let s := match tell with
      | some die => ((s.commOf asid).chansOf g).foldl (fun (s : State) n => s.tellChan die asid g true n)
          (s.tellPeers die asid g ((s.commOf asid).coll g).peers)
      | none => s
    s.dies.foldl (fun (s : State) (d : Nat × Die) =>
      (d.2.tx.ops.filter fun o => o.asid == asid && o.group == g && !o.ready).foldl
        (fun (s : State) o => s.endOp d.1 o.opid 9 0 0) s) s

/-- A member's own operation on a group, which may name a peer: its GSEQ, and whether a pair that was held for it differs from its own
(R140). -/
def State.joinGroup (s : State) (asid g gdig : Nat) (peer : List Nat) : Nat × Bool × State :=
  let c := (s.commOf asid).coll g
  let bad := c.pairs.any fun p => p.1 == c.gseq && p.2 != gdig
  (c.gseq, bad, s.updComm asid fun m => m.updColl g fun c =>
    { c.knows peer with gseq := c.gseq + 1, own := c.own ++ [(c.gseq, gdig)], pairs := c.pairs.filter fun p => p.1 != c.gseq })

/-- The group, KIND, FMT and ELEMS of a collective operation (R140); group 0 for one that is none. -/
def opGroup (m : Comm) (kind : Nat) (d : List W64) (xb : W64) : Nat × Nat × Nat × Nat :=
  let sent := tdNch d * tdChb d * 8 / fmtWidth (tdFmt d)
  match kind with
  | 2 => (tdGroup d, 2, tdFmt d, sent)
  | 3 => (chGroup (m.chan (fld xb 7 0)), 1, tdFmt d, sent)
  | 4 | 8 =>
    let c := m.chan (fld (wd d 1) 7 0)
    (if chKind c = 0 then 0 else chGroup c, chKind c, chFmt c, chElems c)
  | _ => (0, 0, 0, 0)

/-! ## Traps at issue (R310, R313, R315) -/

/-- The trap of a transport operation at check 5; a fired operation takes none. FMT 14 or 15 traps in the descriptor of every one but
TXGET, which ignores it (R310, R313), and with CHSEND and CHRECV in their channel too (R19). -/
def State.opTrap (s : State) (asid kind : Nat) (d : List W64) (xb : W64) : Option Trap :=
  let m := s.commOf asid
  let ch := m.chan (if kind = 3 then fld xb 7 0 else fld (wd d 1) 7 0)
  let g := (opGroup m kind d xb).1
  let f := tdFmt d
  if (kind = 0 || kind = 3 || kind = 4 || kind = 7 || kind = 8) && 14 ≤ f then some (trapAt 1 0 0 6 0)
  else if (kind = 4 || kind = 8) && chV ch && 14 ≤ chFmt ch then some (trapAt 1 0 0 6 0)
  else if kind = 2 && !(f = 0 || f = 1 || f = 9 || f = 10) then some (trapAt 1 0 0 6 0)
  else if kind = 1 && tdHandle d != 0 then some (trapAt 1 0 0 6 0)
  else if kind = 3 && !(chV ch && chKind ch == 1) then some (trapAt 14 0 0 6 0)
  else if (kind = 4 || kind = 8) && !chV ch then some (trapAt 14 0 0 6 0)
  else if kind = 7 && xb == 0 then some (trapAt 14 0 0 6 0)
  else if g != 0 && (m.coll g).broken then some (trapAt 18 0 0 6 (BitVec.ofNat 64 g))
  else none

/-- Bytes of an operation's local data. -/
def opBytes (m : Comm) (kind : Nat) (d : List W64) (xb : W64) : Nat :=
  if kind ≤ 3 then tdNch d * tdChb d
  else if kind = 7 then xb.toNat
  else
    let c := m.chan (fld (wd d 1) 7 0)
    elemBytes (chFmt c) (chElems c)

/-- The status that an operation completes with at once, with FKIND and ADDR; none if it starts (R310). LADDR in CB is taken for any
operation (log 58). The peers of a channel are checked when its list has been read (State.peersBad). -/
def State.opVerdict (s : State) (die asid kind : Nat) (d : List W64) (xb : W64) : Option (Nat × Nat × W64) :=
  let m := s.commOf asid
  let e := s.asidEnt die asid
  let local' := kind ≤ 4 || kind = 7 || (kind = 8 && chKind (m.chan (fld (wd d 1) 7 0)) == 0)
  if kind ≤ 3 && (tdChb d == 0 || 4096 < tdChb d || tdNch d == 0 || (kind == 2 && 256 < tdNch d)) then some (2, 0, 0)
  else if local' && tdLkind d && !bufInRange (wd d 0) (opBytes m kind d xb) then some (3, 0, wd d 0)
  else if !bit e.1 1 && (kind ≤ 4 || kind = 7 || kind = 8) then some (1, 3, 0)
  else if (kind ≤ 2 || (kind = 7 && tdPeer d != 0x1FFF)) && fld e.2 12 0 < tdPeer d then some (1, 3, 0)
  else none

/-! ## Messages (R142 to R144) -/

/-- Whether a posted receive takes a header (R142). -/
def Posted.takes (p : Posted) (h : MsgHdr) : Bool :=
  ((h.tag ^^^ p.tag) &&& p.mask) == 0 && (p.src == 0x1FFF || p.src == h.pkt.src)

/-- Gives a header to the operation that receives it (R142 to R144): a payload that came with it is to be written, a longer
one is pulled from its sender. The sender gets the same request for either, which tells it how much of the message is taken (R144).
ADDR is the match tag, and a message longer than the receive ends with TRUNC. -/
def State.giveMsg (s : State) (asid : Nat) (p : Posted) (h : MsgHdr) : State :=
  let n := min h.len p.len
  let s := s.updOp p.die p.opid fun o =>
    { o with addr := h.tag, status := if p.len < h.len then 10 else 0, total := n, peers := [h.pkt.src], started := true,
             data := if h.len ≤ h.pkt.payload.length then some (h.pkt.payload.take n) else none
             src := if h.pkt.payload.length < h.len && h.len ≤ 16384 then some (h.pkt.src, h.rkey) else none }
  s.queuePkt p.die asid h.pkt.src false (semPkt (if h.len ≤ 16384 then 0 else p.opid)
    [BitVec.ofNat 64 h.rkey, BitVec.ofNat 64 n, BitVec.ofNat 64 p.opid] [])

/-- The bytes of a message's payload that have come, from the first, as far as they have no gap (R142). -/
def Comm.partsOf (m : Comm) (src rkey : Nat) : Nat → List Byte
  | 0 => []
  | n + 1 =>
    let l := m.partsOf src rkey n
    if l.length < n then l
    else match m.parts.findSome? fun p => if p.1 == src && p.2.1 == rkey && p.2.2.1 ≤ n then p.2.2.2[n - p.2.2.1]? else none with
    | some b => l ++ [b]
    | none => l

/-- Gives a receive the payload of its message once it has come (R142). -/
def State.takeParts (s : State) (die : Nat) (o : TxOp) : State :=
  match o.src with
  | none => s
  | some (src, rkey) =>
    let bs := (s.commOf o.asid).partsOf src rkey o.total
    if o.ready || bs.length < o.total then s
    else
      let mine := fun (p : Nat × Nat × Nat × List Byte) => p.1 == src && p.2.1 == rkey
      (s.updComm o.asid fun m => { m with parts := m.parts.filter fun p => !mine p }).updOp die o.opid fun x =>
        { x with data := some bs, src := none }

/-- Answers an arriving packet: source, flow, sequence number and code (Transport.answer). -/
def State.answerTo (s : State) (die src flow psn code : Nat) : State :=
  s.updTx die fun t => { t with answer := some (src, flow, psn, code) }

/-- Answers a header. -/
def State.answerHdr (s : State) (die : Nat) (h : MsgHdr) (code : Nat) : State :=
  s.answerTo die h.pkt.src h.pkt.flow h.pkt.psn code

/-- Posts a receive: against the unexpected queue first, else in the list (R142, R143). -/
def State.postRecv (s : State) (asid : Nat) (p : Posted) : State :=
  let m := s.commOf asid
  match m.unexp.find? fun h => p.takes h with
  | some h => (s.updComm asid fun m => { m with unexp := m.unexp.erase h }).giveMsg asid p h
  | none => s.updComm asid fun m => { m with posted := m.posted ++ [p] }

/-- Whether an operation is a receive that is posted: RXPOST, or CHRECV on a channel of KIND 0 (R142, R315). -/
def State.isRecv (s : State) (o : TxOp) : Bool := o.kind == 7 || (o.kind == 8 && chKind (s.opChan o) == 0)

/-- Posts the receive of an operation. A CHRECV takes its source from its channel's peer list, and waits while the list cannot be read or
4,096 receives are posted (R142, R311, R315). -/
def State.startRecv (s : State) (die : Nat) (o : TxOp) : State :=
  let p : Posted := { opid := o.opid, die := die, tag := wd o.words 2, mask := wd o.words 3, src := tdPeer o.words,
                      len := o.xb.toNat % 2 ^ 32 }
  let go := fun (s : State) (p : Posted) => (s.updOp die o.opid fun x => { x with started := true, waitPg := none }).postRecv o.asid p
  if o.kind = 7 then go s p
  else if 4096 ≤ (s.commOf o.asid).posted.length then s
  else match s.opWaits o (s.opRanges o) with
    | some f => f s
    | none => match s.opPeers { o with kind := 4 } with
      | .error f => s.opFail die o f false
      | .ok (l, s) =>
        if s.peersBad die o.asid l || (l.isEmpty && tdPeer o.words != 0x1FFF) then s.endOp die o.opid 1 3 0
        else
          let ch := s.opChan o
          go s { p with mask := BitVec.allOnes 64, len := elemBytes (chFmt ch) (chElems ch),
                        src := if tdPeer o.words = 0x1FFF then 0x1FFF else l.headD 0x1FFF }

/-! ## Issue (R134, R310) -/

/-- Issues a transport operation: it takes an OPID, adds its tokens, joins its group, and completes at once where R310 says
so; a receive is posted at once if it can be. `trap` stands for a check that a fired operation fails. -/
def State.issueOp (s : State) (w : At) (trid asid kind : Nat) (d : List W64) (xa xb kperm : W64) (ne : Bool) (source : Nat)
    (trap : Bool) : State :=
  let die := dieOf w.core
  let m := s.commOf asid
  let r := s.newOpid die
  let s := r.2
  let s := if kind = 0 || kind = 2 || kind = 3 || kind = 4 then s.addTokens die d else s
  let g := opGroup m kind d xb
  let gdig := gdigOf g.1 g.2.1 g.2.2.1 g.2.2.2
  let j := if g.1 = 0 || trap then (0, false, s) else s.joinGroup asid g.1 gdig (if kind = 2 then [tdPeer d] else [])
  let s := j.2.2
  let v := if trap then some (Config.firedStatus.toNat, 0, 0) else s.opVerdict die asid kind d xb
  let o : TxOp :=
    { opid := r.1, kind := kind, core := w.core, ctx := w.ctx, trid := trid, asid := asid, tag := fld xa 15 0,
      source := source, noev := ne, words := d, xb := xb, kperm := kperm, total := 0, acked := 0, bytes := 0,
      ctr := if kind = 7 || kind = 5 || kind = 6 || kind = 9 then none else tdCtr d, status := (v.map (·.1)).getD 0,
      fkind := (v.map (·.2.1)).getD 0, addr := (v.map (·.2.2)).getD 0, group := g.1, gseq := j.1, gdig := gdig, peers := [],
      started := false, ready := v.isSome, mark := s.accId, data := none, src := none, waitPg := none }
  let s := { s with accId := s.accId + 1 }
  let s := s.updTx die fun t => { t with ops := t.ops ++ [o] }
  let s := if v.isSome || !s.isRecv o then s else s.startRecv die o
  if j.2.1 then s.breakGroup asid g.1 (some die) else s

/-! ## Counters and triggers (R146 to R148, R316) -/

/-- Value of a counter. -/
def Comm.counter (m : Comm) (c : Nat) : W64 := tget 0 m.ctr c

/-- An armed predicate (R146): terms joined left to right. -/
def TrigSlot.holds (t : TrigSlot) (m : Comm) : Bool :=
  let term := fun i => decide (wd t.tpv i ≤ m.counter (fld t.tpctl (3 * i + 4) (3 * i + 2)))
  let n := fld t.tpctl 1 0
  (List.range n).foldl (fun b i => if bit t.tpctl (14 + i) then b || term (i + 1) else b && term (i + 1)) (term 0)

/-- Whether the memory of a slot's context is resident, or its task has ended (R148). That memory is taken to be the task's buffers,
which a pre-emption without KEEP evicts, and not its pages: the model's choice (log 63). -/
def State.trigHome (s : State) (t : TrigSlot) : Bool :=
  match tget? s.tasks t.trid with
  | none => true
  | some k => !k.saved || k.resident

/-- Fires an armed operation (R147): it issues as though its context had issued it, and its record carries SOURCE 3. -/
def State.fire (s : State) (asid : Nat) (t : TrigSlot) : State :=
  s.issueOp ⟨t.core, t.ctx⟩ t.trid asid t.opk t.words t.xa t.xb t.kperm false 3 (s.opTrap asid t.opk t.words t.xb).isSome

/-- Evaluates every armed predicate of a communication context; those that hold fire in slot order and are disarmed
(R147). -/
def State.evalTrigs (s : State) (asid : Nat) : State :=
  let m := s.commOf asid
  let due := m.trigs.filter fun t => t.2.holds m && s.trigHome t.2
  let s := s.updComm asid fun m => { m with trigs := m.trigs.filter fun t => !(due.any fun q => q.1 == t.1) }
  due.foldl (fun s t => s.fire asid t.2) s

/-- Adds to a counter, and evaluates (R146, R147). -/
def State.addCtr (s : State) (asid c : Nat) (v : W64) : State :=
  (s.updComm asid fun m => { m with ctr := tset m.ctr c (m.counter c + v) }).evalTrigs asid

/-- The lowest free slot of the trigger unit. -/
def Comm.freeTrig (m : Comm) : Option Nat := (List.range 16).find? fun i => (tget? m.trigs i).isNone

/-- Arms an operation with what its context `c` holds when the bundle issues; a predicate that is true fires it at once (R58, R147,
R316). -/
def State.arm (s : State) (w : At) (c : Ctx) (opk : Nat) (d : List W64) (xa xb : W64) : State :=
  match (s.commOf c.asid).freeTrig with
  | none => s
  | some i =>
    let t : TrigSlot := { opk := opk, words := d, xa := xa, xb := xb, kperm := c.sys.kperm, tpctl := c.eng.tpctl,
                          tpv := (List.range 4).map (tget 0 c.eng.tpv), core := w.core, ctx := w.ctx, trid := c.tridN }
    (s.updComm c.asid fun m => { m with trigs := tset m.trigs i t }).evalTrigs c.asid

/-! ## Arrived data and completion (R134, R142, R313) -/

/-- Writes the bytes that have arrived for an operation to its LADDR. -/
def State.placeData (s : State) (die : Nat) (o : TxOp) : State :=
  match o.data with
  | none => s
  | some bs =>
    if o.ready || !((o.waitPg.map (·.declined)).getD true) then s
    else match if tdLkind o.words then none else s.unitBias .transport (dieOf o.core) o.asid true [(wd o.words 0, bs.length)] with
    | some f => f s
    | none => match s.opWrite o (tdLkind o.words) (wd o.words 0) bs with
      | (s, none) => (s.updOp die o.opid fun x => { x with data := none, bytes := bs.length }).endOp die o.opid o.status 0
          (if o.kind = 1 then 0 else o.addr)
      | (s, some f) => s.opFail die o f true

/-- Whether a CHRECV on a channel of KIND 1 to 3 has an epoch to consume (R315). -/
def State.recvReady (s : State) (o : TxOp) : Bool :=
  let m := s.commOf o.asid
  let c := m.chan o.chanNo
  match tget? m.table (chHandle c) with
  | some p => p.taken < p.epochs
  | none => false

/-- Consumes an epoch for a CHRECV, and notes its senders (R315). -/
def State.recvEpoch (s : State) (die : Nat) (o : TxOp) : State :=
  let m := s.commOf o.asid
  let c := m.chan o.chanNo
  match tget? m.table (chHandle c) with
  | some p =>
    if p.taken < p.epochs then
      ((s.updPlace o.asid (chHandle c) { p with taken := p.taken + 1, srcs := [] }).updOp die o.opid fun x =>
        { x with peers := p.srcs }).endOp die o.opid 0 0 0
    else s
  | none => s

/-- What arrivals complete: data to be written, and CHRECVs whose channel has completed an epoch. -/
def State.settleOps (s : State) (die : Nat) : State :=
  (s.die die).tx.ops.foldl (fun s o => match s.opOf die o.opid with
    | none => s
    | some o =>
      let s := s.takeParts die o
      let s := match s.opOf die o.opid with
        | some o => s.placeData die o
        | none => s
      if o.kind = 8 && !o.ready && chKind (s.opChan o) != 0 then s.recvEpoch die o else s) s

/-- What a die's transport does of itself: starts operations, completes flushes, and sends packets. -/
def State.pump (s : State) (die : Nat) : State :=
  let s := (s.die die).tx.ops.foldl (fun s o => match s.opOf die o.opid with
    | none => s
    | some o =>
      let s := if !s.mayStart die o then s else if s.isRecv o then s.startRecv die o else s.startOp die o
      if (o.kind = 5 || o.kind = 6) && !o.ready then s.stepFlush die o else s) s
  let s := (s.cutAll die).tellRest die
  ((s.die die).tx.flows.map (·.1)).foldl (fun s f => s.pumpFlow die f) s

/-- The operation that TRANSPORT_OP_COMPLETE completes: it is ready, and its record has room (R109, R148). -/
def State.opDone (s : State) (die opid : Nat) : Option TxOp :=
  (s.die die).tx.ops.find? fun o => o.opid == opid && o.ready && (o.noev || s.roomTo o.trid)

/-- TRANSPORT_OP_COMPLETE (R134, R138, R146): the record, the counter, and the credit that a CHRECV returns. -/
def State.completeOp (s : State) (die opid : Nat) : State :=
  match s.opDone die opid with
  | none => s
  | some o =>
    let s := s.updTx die fun t => { t with ops := t.ops.filter fun x => x.opid != opid }
    let s := if o.noev then s else s.postTo o.trid ⟨recW0 o.tag o.source o.status 0 o.fkind o.bytes, o.addr⟩
    let s := if o.kind = 8 then
        o.peers.foldl (fun s p => s.control die o.asid p o.chanNo 0) s else s
    let s := if o.kind = 6 then s.updTask o.trid fun t =>
        { t with writes := t.writes.filter fun p => !((o.all || o.peers.contains p.1) && p.2 < o.mark) } else s
    match o.ctr with
    | some c => s.addCtr o.asid c 1
    | none => s

/-- Transport operation complete. -/
def execTransportOpComplete (die opid : Nat) (s : State) : Host.Outcome State Fault Refusal := .next (s.completeOp die opid)

end Sys2Proof.Machine
end

