-- ==== Sys2Proof/Machine/Engine.lean ====
section
/-! DEFINITION. The EN lane: engine registers, copies and rings, waits on placed regions, transport operations, triggers and
counters, tiles, tasks and domains, phases, the step sequencer, digests, profiling and posted events (R306 to R326). -/

namespace Sys2Proof.Machine

open Sys2Proof

/-! ## What the slots share -/

/-- An EN slot: an install in progress holds it back as an engine wait (R306). -/
def slotEn (ill : Bool) (reads : List (RFile × Nat)) (wait : At → State → Option (Run × (State → State)))
    (trap5 : At → State → Option Trap) (eff : At → State → State → State) : SlotSem :=
  { lane := 6, ill := ill, reads := reads
    wait := fun w s => if (s.ctx w).eng.plwPend.isSome then some (.waiting, id) else wait w s
    trap5 := trap5, effect := eff }

/-- No wait. -/
def noWait : At → State → Option (Run × (State → State)) := fun _ _ => none
/-- No trap. -/
def noTrap : At → State → Option Trap := fun _ _ => none

/-- An engine wait. -/
def waitIf (b : Bool) : Option (Run × (State → State)) := if b then some (.waiting, id) else none
/-- A stall that is not an engine wait. -/
def holdIf (b : Bool) : Option (Run × (State → State)) := if b then some (.stalled, id) else none
/-- A wait, unless the slot traps. -/
def unlessTrap (t : Option Trap) (r : Option (Run × (State → State))) : Option (Run × (State → State)) :=
  if t.isSome then none else r

/-- A trap of the EN lane. -/
def enTrap (b : Bool) (cause : Nat) (addr : W64) : Option Trap := if b then some (trapAt cause 0 0 6 addr) else none

/-- An x register of a context. -/
def State.xreg (s : State) (w : At) (r : R5) : W64 := (s.ctx w).regs.getX r.toNat

/-- The reads of x registers. -/
def xReads (rs : List R5) : List (RFile × Nat) := rs.map fun r => (.x, r.toNat)

/-! ## Engine registers (R306, Table 13-6) -/

/-- What an engine register number names. -/
inductive EngReg where
  | cd (i : Nat) | md (i : Nat) | rt (i : Nat) | cestat | plw (i : Nat) | plwcmd | plwstat
  | td (i : Nat) | tpctl | tpv (i : Nat) | trigstat | dg | chan (i : Nat) | ctr (i : Nat)
  deriving DecidableEq, Repr

/-- The register of a number; none for a number that is not in Table 13-6. -/
def engReg (n : Nat) : Option EngReg :=
  if n < 0x40 then some (.cd n)
  else if n < 0xD0 then some (.md (n - 0x40))
  else if n < 0x110 then some (.rt (n - 0xD0))
  else if n = 0x110 then some .cestat
  else if 0x118 ≤ n && n < 0x120 then some (.plw (n - 0x118))
  else if n = 0x120 then some .plwcmd
  else if n = 0x121 then some .plwstat
  else if 0x130 ≤ n && n < 0x170 then some (.td (n - 0x130))
  else if n = 0x170 then some .tpctl
  else if 0x171 ≤ n && n < 0x175 then some (.tpv (n - 0x171))
  else if n = 0x178 then some .trigstat
  else if n = 0x180 then some .dg
  else if 0x400 ≤ n && n < 0x800 then some (.chan (n - 0x400))
  else if 0x800 ≤ n && n < 0x808 then some (.ctr (n - 0x800))
  else none

/-- The write of EWR in an ASID (Table 13-6). -/
def Eng.write (e : Eng) (asid : Nat) (r : EngReg) (v : W64) : Eng :=
  match r with
  | .cd i => { e with cd := tset e.cd i (cdKeep (i % 8) v) }
  | .md i => { e with md := tset e.md i (mdKeep (i % 9) v) }
  | .rt i => { e with rt := tset e.rt i (rtKeep (i % 4) v) }
  | .cestat => { e with haltq := e.haltq &&& (15 - v.toNat % 16) }
  | .plw i => { e with plw := tset e.plw i (plwKeep i v) }
  | .plwcmd => { e with plwPend := some (rsvd 63 25 v, asid) }
  | .td i => { e with td := tset e.td i (tdKeep (i % 4) v) }
  | .tpctl => { e with tpctl := rsvd 63 17 v }
  | .tpv i => { e with tpv := tset e.tpv i v }
  | .dg => { e with dg := v }
  | .plwstat => e
  | .trigstat => e
  | .chan _ => e
  | .ctr _ => e

/-- Whether EWR traps PRIV whatever the mode (R306). -/
def EngReg.priv : EngReg → Bool
  | .chan _ => true
  | .ctr _ => true
  | _ => false

/-- Whether a register is a word of a pipe record (R113). -/
def Eng.pipeReg (e : Eng) : EngReg → Bool
  | .rt i => e.isPipe (i / 4)
  | _ => false

/-- A word of a ring record; a pipe's pointers come from the cluster's store (R113). -/
def State.ringWord (s : State) (w : At) (i : Nat) : W64 :=
  let e := (s.ctx w).eng
  let p := s.ringPtr w (i / 4)
  if e.isPipe (i / 4) && i % 4 = 2 then mkW [(p.c, 32), (p.p, 0)]
  else if e.isPipe (i / 4) && i % 4 = 3 then BitVec.ofNat 64 p.res
  else tget 0 e.rt i

/-- TRIGSTAT: bit s while slot s is armed. -/
def Comm.trigstat (m : Comm) : W64 := BitVec.ofNat 64 ((m.trigs.map fun t => 2 ^ t.1).sum)

/-- What ERD reads (Table 13-6). -/
def State.engRead (s : State) (w : At) (r : EngReg) : W64 :=
  let c := s.ctx w
  let e := c.eng
  let m := s.commOf c.asid
  match r with
  | .cd i => tget 0 e.cd i
  | .md i => tget 0 e.md i
  | .rt i => s.ringWord w i
  | .cestat => c.cestat
  | .plw i => tget 0 e.plw i
  | .plwcmd => 0
  | .plwstat => e.plwstat
  | .td i => tget 0 e.td i
  | .tpctl => e.tpctl
  | .tpv i => tget 0 e.tpv i
  | .trigstat => m.trigstat
  | .dg => e.dg
  | .chan i => tget 0 m.chans i
  | .ctr i => m.counter i

/-- EWR (R306). -/
def slotEwr (a : R5) (n : BitVec 12) : SlotSem :=
  let r := engReg n.toNat
  { slotEn r.isNone (xReads [a]) noWait
      (fun w s => enTrap ((r.map fun x => (s.ctx w).eng.pipeReg x).getD false) 3 0)
      (fun w p s => match r with
        | some x => s.updEng w fun e => e.write (s.ctx w).asid x (p.xreg w a)
        | none => s) with
    priv := fun _ => (r.map EngReg.priv).getD false }

/-- ERD (R306): its result is scoreboarded. -/
def slotErd (d : R5) (n : BitVec 12) : SlotSem :=
  let r := engReg n.toNat
  { slotEn r.isNone [] noWait noTrap
      (fun w p s => match r with
        | some x => s.scoreboard w (sbNow .x d.toNat wholeMask ((p.engRead w x).setWidth 2048))
        | none => s) with
    writes := [(.x, d.toNat)], sb := true }

/-! ## Copies and rings (R104, R106, R107, R111, R112, R307) -/

/-- Entries of a queue. -/
def Ctx.queueLen (c : Ctx) (q : Nat) : Nat := (c.copyq.filter fun e => e.q == q).length

/-- The status that a queue's halt gives to an entry (R107). -/
def Ctx.presetOf (c : Ctx) (q : Nat) : Nat := if c.eng.haltq.testBit q then 4 else 0

/-- A copy-queue entry before it starts. -/
def Ctx.newEnt (c : Ctx) (kind : CopyKind) (q : Nat) (ws : List W64) (tag : Nat) (evt : Bool) (ring : Option (Nat × Nat))
    (status : Nat) : CopyEnt :=
  { kind := kind, q := q, words := ws, tag := tag, evt := evt, kperm := c.sys.kperm, asid := c.asid, ring := ring,
    started := false, next := 0, paused := none, status := status, fkind := 0, addr := 0, ended := false, sigs := 0,
    sums := [] }

/-- The words of CDn. -/
def Eng.cdSet (e : Eng) (n : Nat) : List W64 := (List.range 8).map fun i => tget 0 e.cd (8 * n + i)

/-- The snapshot that CPYQ takes: with RINGEN and a usable ring its destination is the slot it reserves (R112). -/
def State.cpSnap (s : State) (w : At) (ws : List W64) : List W64 :=
  let h := cpRing ws
  if cpRingen ws && s.ringUsable w h then
    (ws.set 1 ((s.ctx w).eng.slotAddr h (s.ringPtr w h).res)).set 6 (setFld (wd ws 6) 15 15 1)
  else ws

/-- CPYQ (R98, R104, R107, R112). -/
def slotCpyq (q : BitVec 2) (n : BitVec 3) : SlotSem :=
  let q := q.toNat
  slotEn false []
    (fun w s =>
      let c := s.ctx w
      let ws := c.eng.cdSet n.toNat
      let h := cpRing ws
      if 16 ≤ c.queueLen q then some (.stalled, id)
      else waitIf (cpRingen ws && s.ringUsable w h && c.eng.ringCount h ≤ (s.ringPtr w h).taken))
    (fun w s =>
      let ws := (s.ctx w).eng.cdSet n.toNat
      if cpIllegal ws then some (trapAt 1 0 0 6 0) else s.sidesTrap w q (cpBufSides (s.cpSnap w ws)))
    (fun w p s =>
      let c := p.ctx w
      let ws := c.eng.cdSet n.toNat
      let h := cpRing ws
      let ok := p.ringUsable w h
      let sn := p.cpSnap w ws
      let st := if c.presetOf q != 0 then 4
        else if cpRingen ws && !ok then 5
        else if cpRingen ws && cpSlotBad sn (c.eng.slotBytes h) then 2 else 0
      let r := if cpRingen ws && ok then
          let k := s.reserveSlot w h
          (some (h, k.1), k.2)
        else (none, s)
      r.2.updCtx w fun x =>
        { x with copyq := x.copyq ++ [c.newEnt .copy q sn (cpTag ws) (cpEvt ws) r.1 st] })

/-- QFENCE (R106, R107, R307). -/
def slotQfence (a : R5) (mask : BitVec 4) (evt : Bool) : SlotSem :=
  let qs := maskQueues mask.toNat
  slotEn (mask == 0) (xReads [a])
    (fun w s => holdIf (qs.any fun q => 16 ≤ (s.ctx w).queueLen q)) noTrap
    (fun w p s =>
      let c := p.ctx w
      let one := fun q => c.newEnt (.fence mask.toNat s.fenceId) q [] (fld (p.xreg w a) 15 0) evt none (c.presetOf q)
      { s.updCtx w fun x => { x with copyq := x.copyq ++ qs.map one } with fenceId := s.fenceId + 1 })

/-- The n of a ring instruction (R307). -/
def State.ringN (s : State) (w : At) (a : R5) (n8 : BitVec 8) : Nat :=
  if a = 0 then n8.toNat else fld (s.xreg w a) 31 0

/-- Whether n is 0 or above COUNT, or the record is not usable (R110, R111). -/
def State.ringBad (s : State) (w : At) (h n : Nat) : Bool :=
  !s.ringUsable w h || n == 0 || (s.ctx w).eng.ringCount h < n

/-- A ring slot from its wait, its trap and its effect, each for a handle and n. -/
def slotRing (a : R5) (h : BitVec 4) (n8 : BitVec 8) (ready : State → At → Nat → Nat → Bool)
    (bad : State → At → Nat → Nat → Bool) (eff : State → At → Nat → Nat → State) : SlotSem :=
  let trap := fun (w : At) (s : State) => enTrap (bad s w h.toNat (s.ringN w a n8)) 16 (BitVec.ofNat 64 h.toNat)
  slotEn (a != 0 && n8 != 0) (xReads [a])
    (fun w s => unlessTrap (trap w s) (waitIf (!ready s w h.toNat (s.ringN w a n8)))) trap
    (fun w p s => eff s w h.toNat (p.ringN w a n8))

/-- RWAIT (R111). -/
def slotRwait (a : R5) (h : BitVec 4) (n8 : BitVec 8) : SlotSem :=
  slotRing a h n8 (fun s w h n => n ≤ (s.ringPtr w h).filled) State.ringBad (fun s _ _ _ => s)

/-- RFREE (R111). -/
def slotRfree (a : R5) (h : BitVec 4) (n8 : BitVec 8) : SlotSem :=
  slotRing a h n8 (fun s w h n => (s.ringPtr w h).taken + n ≤ (s.ctx w).eng.ringCount h) State.ringBad
    (fun s _ _ _ => s)

/-- RADV.P (R111). -/
def slotRadvP (a : R5) (h : BitVec 4) (n8 : BitVec 8) : SlotSem :=
  slotRing a h n8 (fun _ _ _ _ => true)
    (fun s w h n =>
      let p := s.ringPtr w h
      s.ringBad w h n || p.res != p.p || (s.ctx w).eng.ringCount h < p.taken + n)
    (fun s w h n =>
      let p := s.ringPtr w h
      s.setRing w h { p with p := (p.p + n) % 2 ^ 32, res := (p.res + n) % 2 ^ 32 })

/-- RADV.C (R111). -/
def slotRadvC (a : R5) (h : BitVec 4) (n8 : BitVec 8) : SlotSem :=
  slotRing a h n8 (fun _ _ _ _ => true)
    (fun s w h n => s.ringBad w h n || (s.ringPtr w h).filled < n)
    (fun s w h n =>
      let p := s.ringPtr w h
      s.setRing w h { p with c := (p.c + n) % 2 ^ 32 })

/-! ## Waits on placed regions (R127, R308, R346) -/

/-- The entry, lo and hi that WAITT names; none where it traps NOTREADY (R308). -/
def State.waittRegion (s : State) (w : At) (a : R5) : Option (List W64 × (Nat → Nat) × (Nat → Nat)) :=
  let r := (s.ctx w).regs
  let lo := coordOf (r.getX (a.toNat + 1))
  let hi := coordOf (r.getX (a.toNat + 2))
  match s.placeAt (s.ctx w).asid (fld (s.xreg w a) 23 0) with
  | none => none
  | some p =>
    let e := p.words
    if [0, 1, 2, 3].all fun d => lo d ≤ hi d && hi d < plNc e d * plCh e d then some (e, lo, hi) else none

/-- WAITT (R308): an entry that is not valid has nothing to wait for and traps at once (log 56), an overlap traps once the wait is over
(R221), and each test of its region reads the bitmap (log 54). -/
def slotWaitt (a : R5) : SlotSem :=
  let trap := fun (w : At) (s : State) => match s.waittRegion w a with
    | none => some (trapAt 14 0 0 6 0)
    | some r => s.plPhase w 6 r.1 r.2.1 r.2.2
  slotEn (29 < a.toNat) [(.x, a.toNat), (.x, a.toNat + 1), (.x, a.toNat + 2)]
    (fun w s => match s.waittRegion w a with
      | some r => if s.regionReady (s.ctx w).asid r.1 r.2.1 r.2.2 then none
        else some (.waiting, fun s => s.regionRead (s.ctx w).asid r.1 r.2.1 r.2.2)
      | none => none)
    trap (fun w p s => match p.waittRegion w a with
      | some r => s.regionRead (p.ctx w).asid r.1 r.2.1 r.2.2
      | none => s)

/-! ## Transport operations (R309 to R317) -/

/-- The words of TDn. -/
def Eng.tdSet (e : Eng) (n : Nat) : List W64 := (List.range 4).map fun i => tget 0 e.td (4 * n + i)

/-- An operation as it would issue, for the reads of its peer list. -/
def State.protoOp (s : State) (w : At) (kind : Nat) (d : List W64) (xb : W64) : TxOp :=
  let c := s.ctx w
  { opid := 0, kind := kind, core := w.core, ctx := w.ctx, trid := c.tridN, asid := c.asid, tag := 0, source := 2,
    noev := true, words := d, xb := xb, kperm := c.sys.kperm, total := 0, acked := 0, bytes := 0, ctr := none, status := 0,
    fkind := 0, addr := 0, group := 0, gseq := 0, gdig := 0, peers := [], started := false, ready := false, mark := 0,
    data := none, src := none, waitPg := none }

/-- Whether an operation waits at issue for credits or for transport resources (R138, R143, R310); one on a channel that is not valid
or on a broken group does not (R141, R315). -/
def State.txWait (s : State) (w : At) (kind : Nat) (d : List W64) (xb : W64) : Bool :=
  let asid := (s.ctx w).asid
  let o := s.protoOp w kind d xb
  let g := (opGroup (s.commOf asid) kind d xb).1
  if (kind = 4 || kind = 8) && (!chV (s.opChan o) || (g != 0 && ((s.commOf asid).coll g).broken)) then false
  else if kind = 7 || (kind = 8 && chKind (s.opChan o) = 0) then 4096 ≤ (s.commOf asid).posted.length
  else if kind = 4 then
    (s.die (dieOf w.core)).tx.ops.any (fun x => x.kind == 4 && x.asid == asid && x.chanNo == o.chanNo && !x.started &&
      !x.ready) ||
    match s.opPeers o with
    | .ok (l, _) => s.creditWait asid o.chanNo l
    | .error _ => false
  else false

/-- A transport slot with a descriptor set. -/
def slotTx (kind : Nat) (a : R5) (b : Option R5) (set : BitVec 4) (ne : Bool) : SlotSem :=
  let xb := fun (w : At) (s : State) => (b.map fun r => s.xreg w r).getD 0
  let trap := fun (w : At) (s : State) =>
    s.opTrap (s.ctx w).asid kind ((s.ctx w).eng.tdSet set.toNat) (xb w s)
  slotEn false (xReads (a :: b.toList))
    (fun w s => waitIf (s.txWait w kind ((s.ctx w).eng.tdSet set.toNat) (xb w s))) trap
    (fun w p s =>
      let c := p.ctx w
      s.issueOp w c.tridN c.asid kind (c.eng.tdSet set.toNat) (p.xreg w a) (xb w p) c.sys.kperm ne 2 false)

/-- TXPUT (R312). -/
def slotTxput (a : R5) (set : BitVec 4) (ne : Bool) : SlotSem := slotTx 0 a none set ne
/-- TXGET (R313). -/
def slotTxget (a : R5) (set : BitVec 4) (ne : Bool) : SlotSem := slotTx 1 a none set ne
/-- TXRED (R312). -/
def slotTxred (a b : R5) (set : BitVec 4) (ne : Bool) : SlotSem := slotTx 2 a (some b) set ne
/-- TXMC (R313). -/
def slotTxmc (a b : R5) (set : BitVec 4) (ne : Bool) : SlotSem := slotTx 3 a (some b) set ne
/-- CHSEND (R315). -/
def slotChsend (a : R5) (set : BitVec 4) (ne : Bool) : SlotSem := slotTx 4 a none set ne
/-- RXPOST (R315). -/
def slotRxpost (a b : R5) (set : BitVec 4) (ne : Bool) : SlotSem := slotTx 7 a (some b) set ne
/-- CHRECV (R315). -/
def slotChrecv (a : R5) (set : BitVec 4) (ne : Bool) : SlotSem := slotTx 8 a none set ne

/-- TXFLUSH, or TXFLUSH.P (R135, R136, R314). -/
def slotFlush (kind : Nat) (a b : R5) (all : Bool) : SlotSem :=
  slotEn false (xReads [a, b]) noWait noTrap
    (fun w p s =>
      let c := p.ctx w
      s.issueOp w c.tridN c.asid kind [if all then 1 else 0] (p.xreg w a) (p.xreg w b) c.sys.kperm false 2 false)

/-- TXFLUSH: with ALL its b field is reserved (R310). -/
def slotTxflush (a b : R5) (all : Bool) : SlotSem := { slotFlush 5 a b all with ill := all && b != 0 }
/-- TXFLUSH.P. -/
def slotTxflushP (a b : R5) (all : Bool) : SlotSem := { slotFlush 6 a b all with ill := all && b != 0 }

/-- TRIG (R316). -/
def slotTrig (a b : R5) (set : BitVec 4) (opk : BitVec 3) : SlotSem :=
  slotEn (4 < opk.toNat) (xReads [a, b]) noWait
    (fun w s => enTrap ((s.commOf (s.ctx w).asid).freeTrig.isNone) 17 0)
    (fun w p s => s.arm w (p.ctx w) opk.toNat ((p.ctx w).eng.tdSet set.toNat) (p.xreg w a) (p.xreg w b))

/-- CTRADD (R317). -/
def slotCtradd (a : R5) (c : BitVec 3) : SlotSem :=
  slotEn false (xReads [a]) noWait noTrap (fun w p s => s.addCtr (p.ctx w).asid c.toNat (p.xreg w a))

/-- The routing counters of a die as the words of a snapshot (R145). -/
def Transport.routeWords (t : Transport) : List W64 :=
  (List.range 128).map fun i => mkW [(tget 0 t.route (2 * i + 1), 32), (tget 0 t.route (2 * i), 0)]

/-- CTRSNAP (R317). -/
def slotCtrsnap (a b : R5) : SlotSem :=
  slotEn false (xReads [a, b]) noWait
    (fun w s => enTrap ((s.xreg w a).toNat % 64 != 0) 8 (s.xreg w a))
    (fun w p s =>
      let c := p.ctx w
      let die := dieOf w.core
      let ws := (s.die die).tx.routeWords
      (s.updTx die fun t => { t with route := [] }).issueOp w c.tridN c.asid 9 (p.xreg w a :: ws) (p.xreg w b) 0 c.sys.kperm
        false 2 false)

/-! ## Tiles, tasks and domains (R318 to R322) -/

/-- NTR answers outstanding (R362). -/
def Pipe.ntrOut (p : Pipe) : Nat := p.ntr.length + (p.inflight.filter fun f => f.file == .tl).length

/-- NTR (R318, R362). -/
def slotNtr : SlotSem :=
  { slotEn false [] (fun w s => if 4 ≤ (s.ctx w).pipe.ntrOut then some (s.ntrRun w, id) else none) noTrap
    (fun w p s => s.updPipe w fun x =>
      { x with ntr := x.ntr ++ [{ tl := x.ntrPtr, due := (p.ctx w).pipe.count + 16, since := p.cycle, aside := none, ans := none }],
               ntrPtr := (x.ntrPtr + 1) % 4 }) with pends := 1 }

/-- TASK (R319, R357, R358). -/
def slotTask (a : R5) : SlotSem :=
  let trap := fun (w : At) (s : State) => enTrap ((s.xreg w a).toNat % 256 != 0) 8 (s.xreg w a)
  slotEn false (xReads [a])
    (fun w s => if s.acqBusy w then some (.stalled, id) else waitIf (s.seqFull (clusterOf w.core))) trap
    (fun w p s =>
      let c := p.ctx w
      s.seqEnter (clusterOf w.core)
        { va := p.xreg w a, asid := c.asid, kperm := c.sys.kperm, core := w.core, trid := c.tridN,
          queue := (p.taskOf w).bind (·.queue), data := none })

/-- DONE (R320). -/
def slotTaskDone (a b : R5) : SlotSem :=
  let trap := fun (w : At) (s : State) => enTrap ((s.xreg w b).toNat % 8 != 0) 8 (s.xreg w b)
  { slotEn false (xReads [a, b]) (fun w s => s.endWait w) trap
      (fun w p s => s.updSched w fun k =>
        { k with ending := some (BitVec.ofNat 64 (fld (p.xreg w a) 31 0), p.xreg w b) }) with
    ctl := fun _ _ => .done }

/-- COUNT of a context's domain at a level (Table 11-4). -/
def Ctx.domCount (c : Ctx) (lv : Nat) : Nat := fld (tget 0 c.sys.dom lv) 39 20
/-- ID of a context's domain at a level. -/
def Ctx.domId (c : Ctx) (lv : Nat) : Nat := fld (tget 0 c.sys.dom lv) 63 40

/-- Arrives at a SYNC (R321). -/
def Sched.arrive (k : Sched) (lv : Nat) : Sched :=
  { k with syncN := tset k.syncN lv ((tget 0 k.syncN lv + 1) % 4096), syncAt := some lv }

/-- The wait of SYNC: first as a release, then for the domain (R321, R367). -/
def State.syncWait (s : State) (w : At) (lv : Nat) : Option (Run × (State → State)) :=
  let c := s.ctx w
  if c.domCount lv = 0 then none
  else match c.sched.syncAt with
  | some l => waitIf (l != lv + 8)
  | none =>
    if s.hasLees w || s.hasHeld c.tridN || s.globalOpen w false || s.cacheBusy c.tridN then some (.waiting, id)
    else some (.waiting, fun s => s.updSched w fun k => k.arrive lv)

/-- SYNC (R321). -/
def slotSync (level : BitVec 3) : SlotSem :=
  slotEn (4 < level.toNat) [] (fun w s => s.syncWait w level.toNat)
    (fun w s => enTrap ((s.ctx w).domCount level.toNat == 0) 14 0)
    (fun w _ s => s.updSched w fun k => { k with syncAt := none })

/-- The tasks that wait at SYNC number n of a domain, on a core and saved (R321, R367). -/
def State.syncArrived (s : State) (lv id n : Nat) : Nat :=
  (s.allCtxs.filter fun p => p.2.sched.syncAt == some lv && p.2.domId lv == id && p.2.domCount lv != 0 &&
    tget 0 p.2.sched.syncN lv == n).length +
  (s.tasks.filter fun t => t.2.saved && t.2.waitSync == some lv &&
    fld (s.imgW t.2.save.toNat (0x440 + 8 * (11 + lv))) 63 40 == id &&
    fld (s.imgW t.2.save.toNat (0x440 + 8 * (11 + lv))) 39 20 != 0 &&
    fld (s.imgW t.2.save.toNat 0x20) (12 * lv + 11) (12 * lv) == n).length

/-- Whether the SYNC that a context waits at opens. -/
def State.syncReady (s : State) (w : At) : Bool :=
  let c := s.ctx w
  match c.sched.syncAt with
  | some lv => lv < 8 && c.domCount lv ≤ s.syncArrived lv (c.domId lv) (tget 0 c.sched.syncN lv)
  | none => false

/-- SYNC_OPEN (R321): every member that waits at it may go on, here or at its resume. -/
def State.syncOpen (s : State) (w : At) : State :=
  let c := s.ctx w
  match c.sched.syncAt with
  | none => s
  | some lv =>
    if !s.syncReady w then s
    else
      let mine := s.allCtxs.filter fun p => p.2.sched.syncAt == some lv && p.2.domId lv == c.domId lv && p.2.domCount lv != 0
      let s := mine.foldl (fun s p => s.updSched p.1 fun k => { k with syncAt := some (lv + 8) }) s
      let away := fun (s : State) (t : Task) => t.saved && t.waitSync == some lv &&
        fld (s.imgW t.save.toNat (0x440 + 8 * (11 + lv))) 63 40 == c.domId lv
      { s with tasks := s.tasks.map fun t => if away s t.2 then (t.1, { t.2 with waitSync := some (lv + 8) }) else t }

/-- Whether two phase-set entries overlap (R345). -/
def PhaseEnt.overlaps (a b : PhaseEnt) : Bool :=
  setFld a.addr 24 0 0 == setFld b.addr 24 0 0 && bufOff a.addr < bufOff b.addr + b.bytes &&
  bufOff b.addr < bufOff a.addr + a.bytes

/-- Whether the sets of a phase conflict (R345). -/
def phaseClash (l : List PhaseEnt) (p : Nat) : Bool :=
  l.any fun a => a.phase == p && a.write && l.any fun b => b.phase == p && b.engine != a.engine && a.overlaps b

/-- Whether a context's task has the deterministic flag. -/
def State.isDet (s : State) (w : At) : Bool := ((s.taskOf w).map (·.det)).getD false

/-- Whether a copy entry, MX operation or MCVT of a context is not complete (R345). -/
def State.phaseBusy (s : State) (w : At) : Bool :=
  let k := s.core w.core
  let own := fun (o : PressOp) => o.ctx == w.ctx
  !(s.ctx w).copyq.isEmpty || k.press.any (fun p => p.2.ops.any own || p.2.mmags.any own) ||
  k.mzeros.any (fun z => z.ctx == w.ctx) || k.mcvts.any (fun z => z.ctx == w.ctx)

/-- PHASE (R322, R345). -/
def slotPhase (p : BitVec 4) : SlotSem :=
  slotEn false [] (fun w s => waitIf (s.isDet w && s.phaseBusy w))
    (fun w s => enTrap (s.isDet w && phaseClash (s.ctx w).phases p.toNat) 10 0)
    (fun w _ s => if s.isDet w then s.updCtx w fun c => { c with phase := p.toNat } else s)

/-! ## The step sequencer (R207, R323) -/

/-- STEPB or STEPE: two words. -/
def slotStep (b : BitVec 8) (tag : BitVec 16) (kind : StepReq) : SlotSem :=
  { slotEn false [] noWait (fun w s => s.stepTrap w b.toNat (kind == .stepe))
      (fun w _ s => s.stepAsk w b.toNat kind tag.toNat) with words := 2 }

/-- STEPB. -/
def slotStepb (b : BitVec 8) (tag : BitVec 16) : SlotSem := slotStep b tag .stepb
/-- STEPB.RP. -/
def slotStepbRp (b : BitVec 8) (tag : BitVec 16) : SlotSem := slotStep b tag .stepbRp
/-- STEPE. -/
def slotStepe (b : BitVec 8) (tag : BitVec 16) : SlotSem := slotStep b tag .stepe

/-! ## Digests (R324, R325) -/

/-- DIGEST (R324). -/
def slotDigest (d a b : R5) (q : BitVec 2) (evt buf : Bool) : SlotSem :=
  let q := q.toNat
  slotEn false (xReads [d, a, b]) (fun w s => holdIf (16 ≤ (s.ctx w).queueLen q))
    (fun w s => if buf then s.sidesTrap w q [(s.xreg w a, false, [(0, (s.xreg w b).toNat)])] else none)
    (fun w p s =>
      let c := p.ctx w
      let e := c.newEnt .digest q [p.xreg w a, p.xreg w b, if buf then 1 else 0] (fld (p.xreg w d) 15 0) evt none
        (c.presetOf q)
      s.updCtx w fun x => { x with copyq := x.copyq ++ [e] })

/-- The other replicas of DIGCMP: the NPEER devices of the channel but this one, whose own digest is among the NPEER where its list
names it (R325, R406). -/
def State.digPeers (s : State) (w : At) (ch : Nat) : Except (Fail × W64) (List Nat) :=
  let c := (s.commOf (s.ctx w).asid).chan ch
  match s.readPeers (s.protoOp w 4 [] 0) c with
  | .ok r => .ok ((r.1.take (chNpeer c)).filter fun p => p != fld (s.asidEnt (dieOf w.core) (s.ctx w).asid).2 25 13)
  | .error f => .error f

/-- The digests of a step that have come from peers, one of each. -/
def Comm.digestsOf (m : Comm) (ch step : Nat) (peers : List Nat) : List W64 :=
  peers.filterMap fun p => (m.digests.reverse.find? fun d => d.1 == ch && d.2.1 == p && d.2.2.1 == step).map (·.2.2.2)

/-- What Sched.digWait holds once the digest of a step has been sent on a channel. -/
def digMark (ch step : Nat) : Nat := 4 * (256 * step + ch)

/-- Sends a step's digest to every peer (R325). -/
def State.sendDigest (s : State) (w : At) (ch step : Nat) (peers : List Nat) : State :=
  let c := s.ctx w
  let k := semPkt 0 [BitVec.ofNat 64 step, BitVec.ofNat 64 ch] (toBytes 8 c.eng.dg.toNat)
  let s := peers.foldl (fun (s : State) p => s.queuePkt (dieOf w.core) c.asid p true k) s
  s.updSched w fun k => { k with digWait := some (digMark ch step) }

/-- Whether a DIGCMP judged with these digests goes on: all agree with its own, or with three or more replicas a strict
majority does (R325). -/
def digAgrees (own : W64) (others : List W64) : Bool :=
  let same := 1 + (others.filter (· == own)).length
  let n := 1 + others.length
  if n ≤ 2 then same == n else n < 2 * same

/-- The trap of DIGCMP (R325). -/
def State.digTrap (s : State) (w : At) (xa xb : W64) : Option Trap :=
  let ch := fld xb 7 0
  let c := (s.commOf (s.ctx w).asid).chan ch
  if !(chV c && chKind c == 3) then some (trapAt 14 0 0 6 0)
  else match s.digPeers w ch with
  | .error f =>
    if f.1.pauses (s.ctx w).sched.hold then none else some (trapAt f.1.cause.1 1 f.1.cause.2 6 f.2)
  | .ok _ => enTrap ((s.ctx w).sched.digWait == some (digMark ch xa.toNat + 2)) 23 xa

/-- The wait of DIGCMP: for the context's DIGESTs, then to send, then for the peers' digests (R325). -/
def State.digWaits (s : State) (w : At) (xa xb : W64) : Option (Run × (State → State)) :=
  let c := s.ctx w
  let ch := fld xb 7 0
  if c.copyq.any fun e => e.kind == .digest then some (.waiting, id)
  else if (s.digTrap w xa xb).isSome then none
  else match s.digPeers w ch with
  | .error f => some (.waiting, fun s => if (s.ctx w).sched.hold.isSome then s else
      (s.updSched w fun k => { k with hold := some { asid := c.asid, va := f.2, declined := false } }).pageRequest
        (dieOf w.core) c.asid f.2 0)
  | .ok peers =>
    if c.sched.digWait == some (digMark ch xa.toNat + 1) then none
    else if c.sched.digWait == some (digMark ch xa.toNat) then some (.waiting, id)
    else some (.waiting, fun s => s.sendDigest w ch xa.toNat peers)

/-- DIGCMP (R325). -/
def slotDigcmp (a b : R5) : SlotSem :=
  slotEn false (xReads [a, b]) (fun w s => s.digWaits w (s.xreg w a) (s.xreg w b))
    (fun w s => s.digTrap w (s.xreg w a) (s.xreg w b))
    (fun w p s =>
      let ch := fld (p.xreg w b) 7 0
      let step := (p.xreg w a).toNat
      ((s.updEng w fun e => { e with dg := 0 }).updSched w fun k => { k with digWait := none, hold := none }).updComm
        (p.ctx w).asid fun m => { m with digests := m.digests.filter fun d => !(d.1 == ch && d.2.2.1 == step) })

/-- Whether the digests that a DIGCMP waits for have all come, and if so whether it goes on. -/
def State.digReady (s : State) (w : At) : Option Bool :=
  let c := s.ctx w
  match c.sched.digWait with
  | none => none
  | some n =>
    let ch := n / 4 % 256
    if n % 4 != 0 then none
    else match s.digPeers w ch with
      | .error _ => none
      | .ok peers =>
        let l := (s.commOf c.asid).digestsOf ch (n / 1024) peers
        if l.length == peers.length then some (digAgrees c.eng.dg l) else none

/-- DIGCMP_RESOLVE (R325): judges the digests; the waiting bundle then issues or traps. -/
def State.digResolve (s : State) (w : At) : State :=
  match s.digReady w with
  | none => s
  | some ok => s.updSched w fun k => { k with digWait := k.digWait.map fun n => if ok then n + 1 else n + 2 }

/-! ## Profiling and posted events (R326, R394) -/

/-- A word of VICFG. -/
def State.vi (s : State) (v wd : Nat) : W64 := tget 0 s.link.vicfg (8 * v + wd)

/-- Writes a word of VICFG. -/
def State.setVi (s : State) (v wd : Nat) (x : W64) : State :=
  { s with link := { s.link with vicfg := tset s.link.vicfg (8 * v + wd) x } }

/-- Appends a profiling record to the queue of an interface, or counts it as dropped, also where the ring lies in host memory behind a
fenced link (Table 17-4, R398, log 62). -/
def State.profile (s : State) (v : Nat) (ws : List W64) : State :=
  let w2 := s.vi v 2
  let w3 := s.vi v 3
  let n := 2 ^ fld w2 5 0
  let head := fld w3 63 32
  if ptrDiff head (fld (s.vi v 4) 63 32) = n then s.setVi v 3 (setFld w3 31 0 (satAdd 32 (fld w3 31 0) 1))
  else
    let pa := (rsvd 11 0 w2).toNat + 32 * (head % n)
    if isHostHomed pa && s.link.fenced then s.setVi v 3 (setFld w3 31 0 (satAdd 32 (fld w3 31 0) 1))
    else (s.homeWrite 0 pa ((ws.map fun x => toBytes 8 x.toNat).flatten)).setVi v 3 (setFld w3 63 32 (head + 1))

/-- PROF (R326). -/
def slotProf (a : R5) (n : BitVec 12) : SlotSem :=
  slotEn false (xReads [a]) noWait noTrap
    (fun w p s => s.profile (((p.taskOf w).map (·.vi)).getD 0)
      [mkW [(n.toNat, 52), (w.core, 43), (w.ctx, 41)], p.xreg w a, BitVec.ofNat 64 p.cycle, 0])

/-- EVPOST (R326). -/
def slotEvpost (c : BitVec 2) (a : R5) (tag : BitVec 12) : SlotSem :=
  let tgt := fun (w : At) => (⟨w.core, c.toNat⟩ : At)
  let bad := fun (w : At) (s : State) =>
    (s.ctx (tgt w)).trid.isNone || (s.ctx (tgt w)).asid != (s.ctx w).asid || (c.toNat == w.ctx && !(s.ctx w).evRoom)
  slotEn false (xReads [a]) (fun w s => waitIf (c.toNat != w.ctx && !(s.ctx (tgt w)).evRoom))
    (fun w s => enTrap (bad w s) 14 0)
    (fun w p s => s.post (tgt w) ⟨recW0 tag.toNat 5 0 0 0 (fld (p.xreg w a) 31 0), 0⟩)

/-! ## The meanings -/

/-- EWR. -/
def execEwr (a : R5) (n : BitVec 12) (s : State) := issueOne (slotEwr a n) s
/-- ERD. -/
def execErd (d : R5) (n : BitVec 12) (s : State) := issueOne (slotErd d n) s
/-- CPYQ. -/
def execCpyq (q : BitVec 2) (n : BitVec 3) (s : State) := issueOne (slotCpyq q n) s
/-- QFENCE. -/
def execQfence (a : R5) (mask : BitVec 4) (evt : Bool) (s : State) := issueOne (slotQfence a mask evt) s
/-- RWAIT. -/
def execRwait (a : R5) (h : BitVec 4) (n8 : BitVec 8) (s : State) := issueOne (slotRwait a h n8) s
/-- RFREE. -/
def execRfree (a : R5) (h : BitVec 4) (n8 : BitVec 8) (s : State) := issueOne (slotRfree a h n8) s
/-- RADV.P. -/
def execRadvP (a : R5) (h : BitVec 4) (n8 : BitVec 8) (s : State) := issueOne (slotRadvP a h n8) s
/-- RADV.C. -/
def execRadvC (a : R5) (h : BitVec 4) (n8 : BitVec 8) (s : State) := issueOne (slotRadvC a h n8) s
/-- WAITT. -/
def execWaitt (a : R5) (s : State) := issueOne (slotWaitt a) s
/-- TXPUT. -/
def execTxput (a : R5) (set : BitVec 4) (ne : Bool) (s : State) := issueOne (slotTxput a set ne) s
/-- TXGET. -/
def execTxget (a : R5) (set : BitVec 4) (ne : Bool) (s : State) := issueOne (slotTxget a set ne) s
/-- TXRED. -/
def execTxred (a b : R5) (set : BitVec 4) (ne : Bool) (s : State) := issueOne (slotTxred a b set ne) s
/-- TXMC. -/
def execTxmc (a b : R5) (set : BitVec 4) (ne : Bool) (s : State) := issueOne (slotTxmc a b set ne) s
/-- TXFLUSH. -/
def execTxflush (a b : R5) (all : Bool) (s : State) := issueOne (slotTxflush a b all) s
/-- TXFLUSH.P. -/
def execTxflushP (a b : R5) (all : Bool) (s : State) := issueOne (slotTxflushP a b all) s
/-- RXPOST. -/
def execRxpost (a b : R5) (set : BitVec 4) (ne : Bool) (s : State) := issueOne (slotRxpost a b set ne) s
/-- CHSEND. -/
def execChsend (a : R5) (set : BitVec 4) (ne : Bool) (s : State) := issueOne (slotChsend a set ne) s
/-- CHRECV. -/
def execChrecv (a : R5) (set : BitVec 4) (ne : Bool) (s : State) := issueOne (slotChrecv a set ne) s
/-- TRIG. -/
def execTrig (a b : R5) (set : BitVec 4) (opk : BitVec 3) (s : State) := issueOne (slotTrig a b set opk) s
/-- CTRADD. -/
def execCtradd (a : R5) (c : BitVec 3) (s : State) := issueOne (slotCtradd a c) s
/-- CTRSNAP. -/
def execCtrsnap (a b : R5) (s : State) := issueOne (slotCtrsnap a b) s
/-- NTR. -/
def execNtr (s : State) := issueOne slotNtr s
/-- TASK. -/
def execTask (a : R5) (s : State) := issueOne (slotTask a) s
/-- DONE. -/
def execTaskDone (a b : R5) (s : State) := issueOne (slotTaskDone a b) s
/-- SYNC. -/
def execSync (level : BitVec 3) (s : State) := issueOne (slotSync level) s
/-- PHASE. -/
def execPhase (p : BitVec 4) (s : State) := issueOne (slotPhase p) s
/-- STEPB. -/
def execStepb (b : BitVec 8) (tag : BitVec 16) (s : State) := issueOne (slotStepb b tag) s
/-- STEPB.RP. -/
def execStepbRp (b : BitVec 8) (tag : BitVec 16) (s : State) := issueOne (slotStepbRp b tag) s
/-- STEPE. -/
def execStepe (b : BitVec 8) (tag : BitVec 16) (s : State) := issueOne (slotStepe b tag) s
/-- DIGEST. -/
def execDigest (d a b : R5) (q : BitVec 2) (evt buf : Bool) (s : State) := issueOne (slotDigest d a b q evt buf) s
/-- DIGCMP. -/
def execDigcmp (a b : R5) (s : State) := issueOne (slotDigcmp a b) s
/-- PROF. -/
def execProf (a : R5) (n : BitVec 12) (s : State) := issueOne (slotProf a n) s
/-- EVPOST. -/
def execEvpost (c : BitVec 2) (a : R5) (tag : BitVec 12) (s : State) := issueOne (slotEvpost c a tag) s

/-- Placement install (R122). -/
def execPlacementInstall (core ctx : Nat) (s : State) : Host.Outcome State Fault Refusal := .next (s.plwInstall ⟨core, ctx⟩)
/-- STEPB evaluation (R208). -/
def execStepbEvaluation (die b : Nat) (s : State) : Host.Outcome State Fault Refusal := .next (s.stepbRun die b)
/-- STEPE close (R210). -/
def execStepeClose (die b : Nat) (s : State) : Host.Outcome State Fault Refusal := .next (s.stepeRun die b)
/-- SYNC open (R321). -/
def execSyncOpen (core ctx : Nat) (s : State) : Host.Outcome State Fault Refusal := .next (s.syncOpen ⟨core, ctx⟩)
/-- DIGCMP resolve (R325). -/
def execDigcmpResolve (core ctx : Nat) (s : State) : Host.Outcome State Fault Refusal := .next (s.digResolve ⟨core, ctx⟩)

end Sys2Proof.Machine
end

