-- ==== Sys2Proof/Machine/Format.lean ====
section
/-! DEFINITION. The FM lane: packing and unpacking, block scales, permutes, residues and stochastic pairs (R282 to R289). -/

namespace Sys2Proof.Machine

open Sys2Proof

/-- An FM slot that writes a whole v register from va and, where used, vb. -/
def slotFM (o : FOpd) (w : Option Rnd) (lat : Nat) (ok useB : Bool) (val : Rounding → Regs → VReg) : SlotSem :=
  { lane := 3, words := if w.isSome then 2 else 1, ill := !ok || rndIll o.fmt.toNat w
    reads := (.v, o.va.toNat) :: (if useB then [(.v, o.vb.toNat)] else []), writes := [(.v, o.vd.toNat)]
    results := fun a s => [Res.v o.vd.toNat (val (s.rounding a w) (s.ctx a).regs) lat] }

/-- The formats that SUB names for PACK and UNPACK (Table 12-6); 15 for none. -/
def subFmt : Nat → Nat
  | 0 => 0 | 1 => 1 | 2 => 2 | 3 => 9 | 4 => 8 | _ => 15

/-- PACK (R283). -/
def slotPack (o : FOpd) (w : Option Rnd) : SlotSem :=
  let df := o.fmt.toNat
  let sf := subFmt o.sub.toNat
  let ws := fmtWidth sf
  let wdst := fmtWidth df
  let es := 2048 / ws
  slotFM o w 2 (df ≤ 9 && sf != 15 && wdst < ws) true fun q r =>
    vOfElems wdst (2 * es) fun j =>
      convert sf df q.rm q.sat q.key j
        (if j < es then elem (r.getV o.va.toNat) ws j else elem (r.getV o.vb.toNat) ws (j - es))

/-- The pairs of Table 12-7. -/
def unpackOk (sf df : Nat) : Bool :=
  if sf = 1 || sf = 2 then df == 0
  else if 3 ≤ sf && sf ≤ 5 then df ≤ 2
  else if sf = 6 || sf = 7 then df ≤ 2 || df == 9 || df == 8
  else if sf = 8 then df == 0 || df == 9 else false

/-- UNPACK (R284). -/
def slotUnpack (o : FOpd) : SlotSem :=
  let sf := o.fmt.toNat
  let df := subFmt o.sub.toNat
  let ws := fmtWidth sf
  let wdst := fmtWidth df
  let ed := 2048 / wdst
  slotFM o none 2 (unpackOk sf df && o.vb.toNat < wdst / ws) false fun _ r =>
    vOfElems wdst ed fun i => convert sf df .rne false 0 i (elem (r.getV o.va.toNat) ws (o.vb.toNat * ed + i))

/-- Scale byte of an e register. -/
def scaleByte (e : W64) (i : Nat) : Nat := e.toNat / 2 ^ (8 * i) % 256

/-- Scale blocks of a register under a format (R285). -/
def scaleBlocks (fmt : Nat) : Nat := elemCount (fmtWidth fmt) / 32

/-- VSCALE (R285): vb field bit 4 is INV, bit 3 reserved, bits 2:0 name e; SUB is S. -/
def slotVscale (o : FOpd) (w : Option Rnd) : SlotSem :=
  let fmt := o.fmt.toNat
  let wid := fmtWidth fmt
  let en := o.vb.toNat % 8
  let sub := o.sub.toNat
  { slotFM o w 2 ((fmtF fmt || fmt == 3 || fmt == 4) && o.vb.toNat / 8 % 2 == 0 && sub + scaleBlocks fmt ≤ 8) false
      (fun q r => vOfElems wid (elemCount wid) fun i =>
        roundTo fmt q.rm q.sat q.key i (applyScale (16 ≤ o.vb.toNat) (scaleByte (r.getE en) (sub + i / 32))
          (elemValue fmt (elem (r.getV o.va.toNat) wid i))).toXR) with
    reads := [(.v, o.va.toNat), (.e, en)] }

/-- CPYE (R285): the scales as values. -/
def slotCpye (o : FOpd) : SlotSem :=
  let fmt := o.fmt.toNat
  let wid := fmtWidth fmt
  let sub := o.sub.toNat
  { slotFM o none 2 ((fmt == 0 || fmt == 1) && o.va.toNat < 8 && o.vb == 0 && sub + scaleBlocks fmt ≤ 8) false
      (fun _ r => vOfElems wid (elemCount wid) fun i =>
        roundNE fmt (decodeScale (scaleByte (r.getE o.va.toNat) (sub + i / 32)))) with
    reads := [(.e, o.va.toNat)] }

/-- The element format that SUB names for BSCALE. -/
def bscaleFmt : Nat → Nat
  | 0 => 4 | 1 => 3 | _ => 5

/-- BSCALE (R286): vd field bits 2:0 name ed, bits 4:3 are Q. -/
def slotBscale (o : FOpd) : SlotSem :=
  let fmt := o.fmt.toNat
  let wid := fmtWidth fmt
  let nb := scaleBlocks fmt
  let q := o.vd.toNat / 8
  let ed := o.vd.toNat % 8
  { lane := 3, ill := !(fmtF fmt && o.sub.toNat ≤ 2 && o.vb == 0 && (q + 1) * nb ≤ 8)
    reads := [(.v, o.va.toNat)], writes := [(.e, ed)]
    results := fun a s =>
      let r := (s.ctx a).regs
      let byte := fun b => sharedExp ((List.range 32).map fun i =>
        elemValue fmt (elem (r.getV o.va.toNat) wid (32 * b + i))) (bscaleFmt o.sub.toNat)
      [⟨.e, ed, BitVec.ofNat 2048 ((2 ^ (8 * nb) - 1) * 2 ^ (8 * q * nb)),
        BitVec.ofNat 2048 (packElems 8 byte nb * 2 ^ (8 * q * nb)), 2⟩] }

/-! ## Permutes (R287) -/

/-- A permute slot: element i of the result from those of va and vb. -/
def slotPermute (o : FOpd) (ok useB : Bool) (f : Nat → (Nat → Nat) → (Nat → Nat) → Nat → Nat) : SlotSem :=
  let wid := fmtWidth o.fmt.toNat
  let e := elemCount wid
  slotFM o none 2 (fmtS o.fmt.toNat && ok) useB fun _ r =>
    vOfElems wid e (f e (elem (r.getV o.va.toNat) wid) (elem (r.getV o.vb.toNat) wid))

/-- PERM (R287). -/
def slotPerm (o : FOpd) : SlotSem := slotPermute o (o.sub == 0) true fun e a b i => a (b i % e)
/-- ZIP (R287). -/
def slotZip (o : FOpd) : SlotSem :=
  slotPermute o (o.sub.toNat ≤ 1) true fun e a b i =>
    let j := i / 2 + o.sub.toNat * (e / 2)
    if i % 2 = 0 then a j else b j
/-- UNZIP (R287). -/
def slotUnzip (o : FOpd) : SlotSem :=
  slotPermute o (o.sub.toNat ≤ 1) true fun e a b i =>
    if i < e / 2 then a (2 * i + o.sub.toNat) else b (2 * (i - e / 2) + o.sub.toNat)
/-- XPOSE (R287). -/
def slotXpose (o : FOpd) : SlotSem :=
  slotPermute o (o.sub == 0 && o.vb == 0) false fun e a _ i => a (i % 8 * (e / 8) + i / 8)

/-! ## Residues (R288) -/

/-- RNSENC (R288). -/
def slotRnsenc (o : FOpd) : SlotSem :=
  slotFM o none 2 (o.fmt == 10 && o.sub == 0 && o.vb == 0) false fun _ r =>
    vOfElems 32 64 fun i => rnsEnc (sextNat (elem (r.getV o.va.toNat) 32 i) 32)
/-- RNSDEC (R288): the shift in the vb field. -/
def slotRnsdec (o : FOpd) : SlotSem :=
  slotFM o none 4 (o.fmt == 10 && o.sub == 0 && o.vb.toNat ≤ 23) false fun _ r =>
    vOfElems 32 64 fun i => intBits (rnsDec (elem (r.getV o.va.toNat) 32 i) o.vb.toNat) 32

/-! ## Stochastic pairs (R289) -/

/-- Pair j of a register. -/
def pairAt (sw32 : Bool) (v : VReg) (j : Nat) : Pair := pairOf sw32 (elem v (if sw32 then 32 else 16) j)

/-- A part of a pair as FP32 bits: 0 mean, 1 log-deviation, 2 deviation (R289). -/
def Pair.part (p : Pair) : Nat → Nat
  | 0 => roundNE 0 p.mu
  | 1 => if p.noSigma then 0xFF800000 else roundNE 0 ((Num.ofInt (sextNat p.raw p.n)).shift (-(p.q : Int)))
  | _ => if p.noSigma then 0 else roundNE 0 p.sigma

/-- SWSPLIT (R289): H in bit 0 of the vb field. -/
def slotSwsplit (o : FOpd) : SlotSem :=
  let sw32 := o.fmt.toNat == 11
  slotFM o none 2 (o.sub.toNat ≤ 2 && ((sw32 && o.vb == 0) || (o.fmt.toNat == 12 && o.vb.toNat ≤ 1))) false fun _ r =>
    vOfElems 32 64 fun i => (pairAt sw32 (r.getV o.va.toNat) (i + 64 * o.vb.toNat)).part o.sub.toNat

/-- A pair from FP32 bits of a mean and a log-deviation (R289); j is its number. -/
def joinPair (sw32 : Bool) (q : Rounding) (j a b : Nat) : Nat :=
  let n := if sw32 then 16 else 8
  let mf := if sw32 then 1 else 4
  let l := decodeFloat 0 b
  let m : Int := 2 ^ (n - 1) - 1
  let raw : Nat := if l == .nan || l == .inf true then 2 ^ (n - 1)
    else intBits (roundInt (-m, m) q.rm (srDraw q.key j) (l.shift (if sw32 then 8 else 3)).toXR) n
  roundTo mf q.rm q.sat q.key j (decodeFloat 0 a).toXR * 2 ^ n + raw

/-- SWJOIN (R289): H in bit 0 of SUB. For SW16 the other 64 pairs of vd are written back whole. -/
def slotSwjoin (o : FOpd) (w : Option Rnd) : SlotSem :=
  let sw32 := o.fmt.toNat == 11
  let h := o.sub.toNat
  let ok := (sw32 && h == 0) || (o.fmt.toNat == 12 && h ≤ 1)
  { slotFM o w 2 ok true (fun q r =>
      let a := r.getV o.va.toNat
      let b := r.getV o.vb.toNat
      if sw32 then vOfElems 32 64 fun i => joinPair true q i (elem a 32 i) (elem b 32 i)
      else vOfElems 16 128 fun j =>
        if 64 * h ≤ j && j < 64 * h + 64 then joinPair false q j (elem a 32 (j - 64 * h)) (elem b 32 (j - 64 * h))
        else elem (r.getV o.vd.toNat) 16 j) with
    reads := [(.v, o.va.toNat), (.v, o.vb.toNat)] ++ (if sw32 then [] else [(.v, o.vd.toNat)]) }

/-! ## The meanings -/

/-- PACK. -/
def execPack (o : FOpd) (w : Option Rnd) (s : State) := issueOne (slotPack o w) s
/-- VSCALE. -/
def execVscale (o : FOpd) (w : Option Rnd) (s : State) := issueOne (slotVscale o w) s
/-- SWJOIN. -/
def execSwjoin (o : FOpd) (w : Option Rnd) (s : State) := issueOne (slotSwjoin o w) s
/-- UNPACK. -/
def execUnpack (o : FOpd) (s : State) := issueOne (slotUnpack o) s
/-- BSCALE. -/
def execBscale (o : FOpd) (s : State) := issueOne (slotBscale o) s
/-- PERM. -/
def execPerm (o : FOpd) (s : State) := issueOne (slotPerm o) s
/-- ZIP. -/
def execZip (o : FOpd) (s : State) := issueOne (slotZip o) s
/-- UNZIP. -/
def execUnzip (o : FOpd) (s : State) := issueOne (slotUnzip o) s
/-- XPOSE. -/
def execXpose (o : FOpd) (s : State) := issueOne (slotXpose o) s
/-- RNSENC. -/
def execRnsenc (o : FOpd) (s : State) := issueOne (slotRnsenc o) s
/-- RNSDEC. -/
def execRnsdec (o : FOpd) (s : State) := issueOne (slotRnsdec o) s
/-- CPYE. -/
def execCpye (o : FOpd) (s : State) := issueOne (slotCpye o) s
/-- SWSPLIT. -/
def execSwsplit (o : FOpd) (s : State) := issueOne (slotSwsplit o) s

end Sys2Proof.Machine
end

