-- ==== Sys2Proof/Machine/Scalar.lean ====
section
/-! DEFINITION. The scalar lanes: arithmetic, constants, system registers and the cross-file copy (R218, R240 to R248). -/

namespace Sys2Proof.Machine

open Sys2Proof

/-- A scalar slot with one result. -/
def slotScalar (f : SFile) (d : R5) (reads : List (RFile × Nat)) (lat : Nat) (ill : Bool) (v : Regs → W64) : SlotSem :=
  { lane := slane f, ill := ill, reads := reads, writes := [(sfile f, d.toNat)],
    results := fun w s => [Res.w (sfile f) d.toNat (v (s.ctx w).regs) lat] }

/-- A scalar slot with operands a and b. -/
def slotAB (f : SFile) (d a : R5) (b : SOpd) (lat : Nat) (v : W64 → W64 → W64) : SlotSem :=
  slotScalar f d ((sfile f, a.toNat) :: opdReads f b) lat false fun r => v (r.getS f a) (r.opd f b)

/-- A shift slot. -/
def slotShift (f : SFile) (d a : R5) (b : SOpd) (v : W64 → Nat → W64) : SlotSem :=
  slotScalar f d ((sfile f, a.toNat) :: opdReads f b) 1 (shiftIll b) fun r => v (r.getS f a) (r.shamt f b)

/-- A division slot: it traps DIVZERO at check 5 (R242). -/
def slotQuot (f : SFile) (d a b : R5) (v : W64 → W64 → W64) : SlotSem :=
  { slotAB f d a (.reg b) 18 v with
    trap5 := fun w s => if (s.ctx w).regs.getS f b = 0 then some (trapAt 20 0 0 (slane f) 0) else none }

/-- Bits n−1..0 of a signed quotient or product. -/
def ofI (i : Int) : W64 := BitVec.ofInt 64 i

/-- ADD (R241). -/
def slotAdd (f : SFile) (d a : R5) (b : SOpd) : SlotSem := slotAB f d a b 1 fun x y => x + y
/-- SUB (R241). -/
def slotSub (f : SFile) (d a b : R5) : SlotSem := slotAB f d a (.reg b) 1 fun x y => x - y
/-- MUL (R241). -/
def slotMul (f : SFile) (d a : R5) (b : SOpd) : SlotSem := slotAB f d a b 3 fun x y => x * y
/-- MULH (R241): bits 127:64 of the signed product. -/
def slotMulh (f : SFile) (d a b : R5) : SlotSem := slotAB f d a (.reg b) 3 fun x y => ofI (x.toInt * y.toInt / 2 ^ 64)
/-- MULHU (R241): bits 127:64 of the unsigned product. -/
def slotMulhu (f : SFile) (d a b : R5) : SlotSem :=
  slotAB f d a (.reg b) 3 fun x y => BitVec.ofNat 64 (x.toNat * y.toNat / 2 ^ 64)
/-- DIV (R242): toward zero. -/
def slotDiv (f : SFile) (d a b : R5) : SlotSem := slotQuot f d a b fun x y => ofI (Int.tdiv x.toInt y.toInt)
/-- DIVU (R242). -/
def slotDivu (f : SFile) (d a b : R5) : SlotSem := slotQuot f d a b fun x y => BitVec.ofNat 64 (x.toNat / y.toNat)
/-- REM (R242): with the dividend's sign. -/
def slotRem (f : SFile) (d a b : R5) : SlotSem := slotQuot f d a b fun x y => ofI (Int.tmod x.toInt y.toInt)
/-- AND (R241). -/
def slotAnd (f : SFile) (d a : R5) (b : SOpd) : SlotSem := slotAB f d a b 1 fun x y => x &&& y
/-- OR (R241). -/
def slotOr (f : SFile) (d a : R5) (b : SOpd) : SlotSem := slotAB f d a b 1 fun x y => x ||| y
/-- XOR (R241). -/
def slotXor (f : SFile) (d a : R5) (b : SOpd) : SlotSem := slotAB f d a b 1 fun x y => x ^^^ y
/-- SHL (R241). -/
def slotShl (f : SFile) (d a : R5) (b : SOpd) : SlotSem := slotShift f d a b fun x n => x <<< n
/-- SHR (R241). -/
def slotShr (f : SFile) (d a : R5) (b : SOpd) : SlotSem := slotShift f d a b fun x n => x >>> n
/-- SAR (R241). -/
def slotSar (f : SFile) (d a : R5) (b : SOpd) : SlotSem := slotShift f d a b fun x n => x.sshiftRight n
/-- MIN (R241). -/
def slotMin (f : SFile) (d a : R5) (b : SOpd) : SlotSem := slotAB f d a b 1 fun x y => if x.toInt ≤ y.toInt then x else y
/-- MAX (R241). -/
def slotMax (f : SFile) (d a : R5) (b : SOpd) : SlotSem := slotAB f d a b 1 fun x y => if x.toInt ≤ y.toInt then y else x
/-- MINU (R241). -/
def slotMinu (f : SFile) (d a : R5) (b : SOpd) : SlotSem := slotAB f d a b 1 fun x y => if x.toNat ≤ y.toNat then x else y
/-- MAXU (R241). -/
def slotMaxu (f : SFile) (d a : R5) (b : SOpd) : SlotSem := slotAB f d a b 1 fun x y => if x.toNat ≤ y.toNat then y else x
/-- SEQ (R241). -/
def slotSeq (f : SFile) (d a : R5) (b : SOpd) : SlotSem := slotAB f d a b 1 fun x y => truth (x == y)
/-- SLT (R241). -/
def slotSlt (f : SFile) (d a : R5) (b : SOpd) : SlotSem := slotAB f d a b 1 fun x y => truth (decide (x.toInt < y.toInt))
/-- SLTU (R241). -/
def slotSltu (f : SFile) (d a : R5) (b : SOpd) : SlotSem := slotAB f d a b 1 fun x y => truth (decide (x.toNat < y.toNat))
/-- SEL (R241). -/
def slotSel (f : SFile) (d a b c : R5) : SlotSem :=
  slotScalar f d [(sfile f, a.toNat), (sfile f, b.toNat), (sfile f, c.toNat)] 1 false fun r =>
    if r.getS f c = 0 then r.getS f b else r.getS f a
/-- CLZ (R241). -/
def slotClz (f : SFile) (d a : R5) : SlotSem :=
  slotScalar f d [(sfile f, a.toNat)] 1 false fun r =>
    let x := (r.getS f a).toNat
    BitVec.ofNat 64 (if x = 0 then 64 else 63 - Nat.log2 x)
/-- POPC (R241). -/
def slotPopc (f : SFile) (d a : R5) : SlotSem :=
  slotScalar f d [(sfile f, a.toNat)] 1 false fun r => BitVec.ofNat 64 (popcount (r.getS f a).toNat 64)
/-- BFX (R243). -/
def slotBfx (f : SFile) (d a : R5) (pos len1 : BitVec 6) : SlotSem :=
  slotScalar f d [(sfile f, a.toNat)] 1 (64 < pos.toNat + len1.toNat + 1) fun r =>
    BitVec.ofNat 64 ((r.getS f a).toNat / 2 ^ pos.toNat % 2 ^ (len1.toNat + 1))
/-- BFI (R243). -/
def slotBfi (f : SFile) (d a : R5) (pos len1 : BitVec 6) : SlotSem :=
  slotScalar f d [(sfile f, a.toNat), (sfile f, d.toNat)] 1 (64 < pos.toNat + len1.toNat + 1) fun r =>
    let m := BitVec.ofNat 64 (2 ^ (len1.toNat + 1) - 1)
    (r.getS f d &&& ~~~(m <<< pos.toNat)) ||| ((r.getS f a &&& m) <<< pos.toNat)
/-- ADDSH (R241). -/
def slotAddsh (f : SFile) (d a b : R5) (sh : BitVec 6) : SlotSem :=
  slotScalar f d [(sfile f, a.toNat), (sfile f, b.toNat)] 1 false fun r => r.getS f a + (r.getS f b <<< sh.toNat)
/-- LI (R223, R244): with H, IMM[46:32] is reserved and the low half is kept. -/
def slotLi (f : SFile) (d : R5) (h : Bool) (hi : BitVec 16) (lo : BitVec 31) : SlotSem :=
  { slotScalar f d (if h then [(sfile f, d.toNat)] else []) 1 (h && 1 < hi.toNat) (fun r =>
      let imm : BitVec 47 := hi ++ lo
      if h then setFld (r.getS f d) 63 32 (imm.toNat % 2 ^ 32) else imm.signExtend 64) with words := 2 }

/-- MFS (R246, R248). -/
def slotMfs (f : SFile) (d : R5) (sel : BitVec 12) : SlotSem :=
  { lane := slane f, ill := !sysSels.contains sel.toNat, writes := [(sfile f, d.toNat)],
    results := fun w s => [Res.w (sfile f) d.toNat ((s.readSys w sel.toNat).getD 0) 1] }

/-- MTS (R246 to R248): the new value holds from the next bundle. A new code window drops the buffered words outside it
(R89). -/
def slotMts (f : SFile) (a : R5) (sel : BitVec 12) : SlotSem :=
  { lane := slane f, ill := mtsClass sel.toNat == 1, priv := fun sup => mtsClass sel.toNat == 2 && !sup,
    reads := [(sfile f, a.toNat)],
    effect := fun w p s =>
      let s := s.updSys w fun y => y.write sel.toNat ((p.ctx w).regs.getS f a)
      s.updCtx w fun c => { c with pipe := { c.pipe with
        ibuf := c.pipe.ibuf.filter fun q => c.sys.codebase.toNat ≤ q.1 && q.1 < c.sys.codelimit.toNat } } }

/-- The source file of CPY (Table 10-2). -/
def cpySource : Nat → RFile
  | 0 => .x | 1 => .y | 2 => .v | 3 => .k | 4 => .a | 5 => .e | _ => .tl

/-- The destination file and lane of CPY. -/
def cpyDest (l : CpyLane) (dk : Bool) : RFile × Nat :=
  match l with
  | .sx => (.x, 0) | .sy => (.y, 1) | .va => (if dk then .k else .v, 2) | .fm => (.e, 3) | .ls => (.a, 4)

/-- The illegal cases of CPY (R217, R218). -/
def cpyIll (l : CpyLane) (d : R5) (sf : BitVec 3) (s piece : R5) (dk : Bool) : Bool :=
  let src := cpySource sf.toNat
  let dst := (cpyDest l dk).1
  sf.toNat == 7 || src == dst || (src == .tl && l != .sx) || (piece.toNat != 0 && src != .v && dst != .v) ||
  (dk && l != .va) || !regOk src s.toNat || !regOk dst d.toNat

/-- The tl register has an answer that has not come 16 counts after its NTR (R218). -/
def Pipe.ntrWaits (p : Pipe) (tl : Nat) : Bool := p.ntrOwn.any fun q => q.tl == tl && q.due ≤ p.count && q.ans.isNone

/-- CPY (R218). -/
def slotCpy (l : CpyLane) (d : R5) (sf : BitVec 3) (s piece : R5) (dk : Bool) : SlotSem :=
  let src := cpySource sf.toNat
  let dst := cpyDest l dk
  { lane := dst.2, ill := cpyIll l d sf s piece dk, reads := [(src, s.toNat)], writes := [(dst.1, d.toNat)],
    wait := fun w st => if src == .tl && (st.ctx w).pipe.ntrWaits s.toNat then some (st.ntrRun w, id) else none,
    results := fun w st =>
      let r := (st.ctx w).regs
      let v : W64 := if src == .v then (r.getV s.toNat >>> (64 * piece.toNat)).setWidth 64 else r.get src s.toNat
      if dst.1 == .v then
        [⟨.v, d.toNat, pieceMask piece.toNat, (v.setWidth 2048) <<< (64 * piece.toNat), 2⟩]
      else [Res.w dst.1 d.toNat v 2] }

/-! ## The meanings -/

/-- ADD. -/
def execAdd (f : SFile) (d a : R5) (b : SOpd) (s : State) := issueOne (slotAdd f d a b) s
/-- SUB. -/
def execSub (f : SFile) (d a b : R5) (s : State) := issueOne (slotSub f d a b) s
/-- MUL. -/
def execMul (f : SFile) (d a : R5) (b : SOpd) (s : State) := issueOne (slotMul f d a b) s
/-- MULH. -/
def execMulh (f : SFile) (d a b : R5) (s : State) := issueOne (slotMulh f d a b) s
/-- MULHU. -/
def execMulhu (f : SFile) (d a b : R5) (s : State) := issueOne (slotMulhu f d a b) s
/-- DIV. -/
def execDiv (f : SFile) (d a b : R5) (s : State) := issueOne (slotDiv f d a b) s
/-- DIVU. -/
def execDivu (f : SFile) (d a b : R5) (s : State) := issueOne (slotDivu f d a b) s
/-- REM. -/
def execRem (f : SFile) (d a b : R5) (s : State) := issueOne (slotRem f d a b) s
/-- AND. -/
def execAnd (f : SFile) (d a : R5) (b : SOpd) (s : State) := issueOne (slotAnd f d a b) s
/-- OR. -/
def execOr (f : SFile) (d a : R5) (b : SOpd) (s : State) := issueOne (slotOr f d a b) s
/-- XOR. -/
def execXor (f : SFile) (d a : R5) (b : SOpd) (s : State) := issueOne (slotXor f d a b) s
/-- SHL. -/
def execShl (f : SFile) (d a : R5) (b : SOpd) (s : State) := issueOne (slotShl f d a b) s
/-- SHR. -/
def execShr (f : SFile) (d a : R5) (b : SOpd) (s : State) := issueOne (slotShr f d a b) s
/-- SAR. -/
def execSar (f : SFile) (d a : R5) (b : SOpd) (s : State) := issueOne (slotSar f d a b) s
/-- MIN. -/
def execMin (f : SFile) (d a : R5) (b : SOpd) (s : State) := issueOne (slotMin f d a b) s
/-- MAX. -/
def execMax (f : SFile) (d a : R5) (b : SOpd) (s : State) := issueOne (slotMax f d a b) s
/-- MINU. -/
def execMinu (f : SFile) (d a : R5) (b : SOpd) (s : State) := issueOne (slotMinu f d a b) s
/-- MAXU. -/
def execMaxu (f : SFile) (d a : R5) (b : SOpd) (s : State) := issueOne (slotMaxu f d a b) s
/-- SEQ. -/
def execSeq (f : SFile) (d a : R5) (b : SOpd) (s : State) := issueOne (slotSeq f d a b) s
/-- SLT. -/
def execSlt (f : SFile) (d a : R5) (b : SOpd) (s : State) := issueOne (slotSlt f d a b) s
/-- SLTU. -/
def execSltu (f : SFile) (d a : R5) (b : SOpd) (s : State) := issueOne (slotSltu f d a b) s
/-- SEL. -/
def execSel (f : SFile) (d a b c : R5) (s : State) := issueOne (slotSel f d a b c) s
/-- CLZ. -/
def execClz (f : SFile) (d a : R5) (s : State) := issueOne (slotClz f d a) s
/-- POPC. -/
def execPopc (f : SFile) (d a : R5) (s : State) := issueOne (slotPopc f d a) s
/-- BFX. -/
def execBfx (f : SFile) (d a : R5) (pos len1 : BitVec 6) (s : State) := issueOne (slotBfx f d a pos len1) s
/-- BFI. -/
def execBfi (f : SFile) (d a : R5) (pos len1 : BitVec 6) (s : State) := issueOne (slotBfi f d a pos len1) s
/-- ADDSH. -/
def execAddsh (f : SFile) (d a b : R5) (sh : BitVec 6) (s : State) := issueOne (slotAddsh f d a b sh) s
/-- LI. -/
def execLi (f : SFile) (d : R5) (h : Bool) (hi : BitVec 16) (lo : BitVec 31) (s : State) :=
  issueOne (slotLi f d h hi lo) s
/-- MFS. -/
def execMfs (f : SFile) (d : R5) (sel : BitVec 12) (s : State) := issueOne (slotMfs f d sel) s
/-- MTS. -/
def execMts (f : SFile) (a : R5) (sel : BitVec 12) (s : State) := issueOne (slotMts f a sel) s
/-- CPY. -/
def execCpy (l : CpyLane) (d : R5) (sf : BitVec 3) (s piece : R5) (dk : Bool) (st : State) :=
  issueOne (slotCpy l d sf s piece dk) st

end Sys2Proof.Machine
end

