-- ==== Sys2Proof/Machine/Walker.lean ====
section
/-! DEFINITION. The trellis walker: nests, slices, dynamic ranges and the answers to NTR (R213, R318, R359 to R362). -/

namespace Sys2Proof.Machine

open Sys2Proof

/-! ## Nests (R359) -/

/-- The loop that stands at place s of a nest's order, innermost at 0. -/
def Task.loopAt (t : Task) (s : Nat) : Nat := t.order / 4 ^ s % 4
/-- Trip count of a loop. -/
def Task.trip (t : Task) (l : Nat) : Nat := t.n.getD l 0
/-- Tiles of a nest. -/
def Task.tiles (t : Task) : Nat := t.trip 0 * t.trip 1 * t.trip 2 * t.trip 3

/-- coords(t): the index of each loop. -/
def Task.coords (t : Task) (k : Nat) (l : Nat) : Nat :=
  ((List.range 4).foldl (fun (r : Nat × Nat) s =>
    let n := t.trip (t.loopAt s)
    (r.1 / max 1 n, if t.loopAt s = l then r.1 % max 1 n else r.2)) (k, 0)).2

/-- The answer for a tile (R318). -/
def Task.answer (t : Task) (k : Nat) : W64 :=
  mkW [(t.coords k 3 % 32768, 45), (t.coords k 2 % 32768, 30), (t.coords k 1 % 32768, 15), (t.coords k 0 % 32768, 0)]

/-- The NULL answer. -/
def ntrNull : W64 := mkW [(1, 63)]

/-- The list U (R359): the tiles whose row has no latched skip bit. -/
def State.openTiles (s : State) (die : Nat) (t : Task) : List Nat :=
  (List.range t.tiles).filter fun k => !(t.ben && s.skipBit die t.block (t.coords k t.rowloop))

/-- How many tiles U holds. -/
def State.openCount (s : State) (die : Nat) (t : Task) : Nat :=
  if t.ben then (s.openTiles die t).length else t.tiles
/-- Entry k of U. -/
def State.openTile (s : State) (die : Nat) (t : Task) (k : Nat) : Nat := if t.ben then (s.openTiles die t).getD k 0 else k

/-- The range of part i of p of n (R360). -/
def sliceOf (n i p : Nat) : Nat × Nat := if p ≤ i then (0, 0) else (n * i / p, n * (i + 1) / p)

/-! ## Answers -/

/-- The slice of a context as its next NTR finds it (R360). -/
def State.sliceNow (s : State) (w : At) (t : Task) : Slice :=
  let c := s.ctx w
  let die := dieOf w.core
  if c.slice.have_ && !c.slice.reslice then c.slice
  else
    let r := sliceOf (s.openCount die t) (fld c.sys.logidx 15 0) (fld c.sys.logidx 31 16)
    { lo := r.1, hi := r.2, pos := r.1, reslice := false, have_ := true,
      stepno := if t.ben then bkStepno (s.block die t.block) else 0 }

/-- The oldest NTR of a context that has no answer, and its place among the context's. -/
def Pipe.ntrFirst (p : Pipe) : Option (NtrReq × Nat) := p.ntr.zipIdx.find? fun q => q.1.ans.isNone

/-- Gives a context's oldest unanswered NTR its answer: it lands at its count, or at once after that (R218, R362); one that is set aside
enters the shadow buffer, and that of a stopped context lands with the stop (R379). -/
def Ctx.giveNtr (c : Ctx) (v : W64) : Ctx :=
  match c.pipe.ntrFirst with
  | none => c
  | some (q, i) =>
    if c.sched.stop.isSome then { c with pipe := { c.pipe with ntr := c.pipe.ntr.set i { q with ans := some v } } }
    else
      let c := { c with pipe := { c.pipe with ntr := c.pipe.ntr.eraseIdx i } }
      if q.aside.isSome then c.keepNtr 0 q v
      else if c.pipe.count < q.due then { c with pipe := c.pipe.push q.due [Res.w .tl q.tl v 0] }
      else { c with regs := c.regs.put .tl q.tl wholeMask (v.setWidth 2048) }

/-- The dynamic range of a context's launch in its cluster (R361). -/
def State.dynRange (s : State) (w : At) (t : Task) : DynRange :=
  tget { rank := 0, parts := 1, pos := 0 } (s.clu (clusterOf w.core)).dyn t.dynKey

/-- The next tile of a context's dynamic range, and its position there; none once the range is handed out (R361). -/
def State.dynNext (s : State) (w : At) (t : Task) : Option Nat :=
  let d := s.dynRange w t
  let r := sliceOf (s.openCount (dieOf w.core) t) d.rank d.parts
  if r.1 + d.pos < r.2 then some (s.openTile (dieOf w.core) t (r.1 + d.pos)) else none

/-- Whether a context asks for a tile that the walker could give it but for the trace: no STEPB of the bound block is outstanding
(R213, R362). -/
def State.ntrAsked (s : State) (w : At) : Bool :=
  ((s.ctx w).pipe.ntr.any fun q => q.ans.isNone) && (s.taskOf w).isSome && !s.ntrHeld w

/-- Whether a request of a context is for a dynamic hand-out, which is a decision of the trace (R361). -/
def State.ntrDecides (s : State) (w : At) : Bool :=
  match s.taskOf w with
  | none => false
  | some t => t.nest && t.dyn && (s.dynNext w t).isSome

/-- Whether the walker may answer a request of a context now: a dynamic hand-out waits for room in the trace, and under replay for
its turn (R361, R371). -/
def State.ntrReady (s : State) (w : At) : Bool :=
  s.ntrAsked w && (!s.ntrDecides w || s.mayTake (dieOf w.core) (s.ctx w).asid 6 (s.ctx w).tridN w.core w.ctx)

/-- NTR_ANSWER (R360 to R362): under replay a dynamic hand-out gives the recorded tile (R361). -/
def State.ntrAnswer (s : State) (w : At) : State :=
  let die := dieOf w.core
  match s.taskOf w with
  | some t =>
    if !s.ntrReady w then (if s.ntrAsked w && !s.mayDecide die 1 then s.logFull die else s)
    else if !t.nest then s.updCtx w fun c => c.giveNtr ntrNull
    else if t.dyn then
      let asid := (s.ctx w).asid
      match s.dynNext w t with
      | some n =>
        let k := if s.replays die asid then fld (wd (s.recorded die asid) 2) 63 0 else n
        let d := s.dynRange w t
        let s := s.updClu (clusterOf w.core) fun c => { c with dyn := tset c.dyn t.dynKey { d with pos := d.pos + 1 } }
        let s := s.decide die 6 asid (s.ctx w).tridN w.core w.ctx (BitVec.ofNat 64 k) []
        s.updCtx w fun c => c.giveNtr (t.answer k)
      | none => s.updCtx w fun c => c.giveNtr ntrNull
    else
      let x := s.sliceNow w t
      if x.pos < x.hi then
        let k := s.openTile die t x.pos
        s.updCtx w fun c => ({ c with slice := { x with pos := x.pos + 1 } }).giveNtr (t.answer k)
      else s.updCtx w fun c => ({ c with slice := x }).giveNtr ntrNull
  | none => s

/-- Puts an entry before the first one with a larger key. -/
def insertKey {α : Type} (k : Nat) (a : α) : List (Nat × α) → List (Nat × α)
  | [] => [(k, a)]
  | (j, b) :: l => if j < k then (j, b) :: insertKey k a l else (k, a) :: (j, b) :: l

/-- The contexts that NTRs without an answer stand in, in the order in which the requests reached the walker, those of one cycle by core
and context (R361). -/
def State.ntrQueue (s : State) : List At :=
  let l := (s.allCtxs.map fun p => (p.2.pipe.ntr.filter fun q => q.ans.isNone).map fun q => (q.since, p.1)).flatten
  (l.foldr (fun x r => insertKey (x.1 * 2048 + x.2.core * 4 + x.2.ctx) x.2 r) []).map (·.2)

/-- NTR answer. -/
def execNtrAnswer (core ctx : Nat) (s : State) : Host.Outcome State Fault Refusal := .next (s.ntrAnswer ⟨core, ctx⟩)

end Sys2Proof.Machine
end

