-- ==== Sys2Proof/Machine/Slots.lean ====
section
/-! DEFINITION. The slot meaning of every instruction that is a slot (R219). -/

namespace Sys2Proof.Machine

/-- The slot of an instruction of a lane; none for a transport-core instruction and for an event. -/
def slotOf : Instr → Option SlotSem
  | .add f d a b => some (slotAdd f d a b)
  | .sub f d a b => some (slotSub f d a b)
  | .mul f d a b => some (slotMul f d a b)
  | .mulh f d a b => some (slotMulh f d a b)
  | .mulhu f d a b => some (slotMulhu f d a b)
  | .div f d a b => some (slotDiv f d a b)
  | .divu f d a b => some (slotDivu f d a b)
  | .rem f d a b => some (slotRem f d a b)
  | .and f d a b => some (slotAnd f d a b)
  | .or f d a b => some (slotOr f d a b)
  | .xor f d a b => some (slotXor f d a b)
  | .shl f d a b => some (slotShl f d a b)
  | .shr f d a b => some (slotShr f d a b)
  | .sar f d a b => some (slotSar f d a b)
  | .min f d a b => some (slotMin f d a b)
  | .max f d a b => some (slotMax f d a b)
  | .minu f d a b => some (slotMinu f d a b)
  | .maxu f d a b => some (slotMaxu f d a b)
  | .seq f d a b => some (slotSeq f d a b)
  | .slt f d a b => some (slotSlt f d a b)
  | .sltu f d a b => some (slotSltu f d a b)
  | .sel f d a b c => some (slotSel f d a b c)
  | .clz f d a => some (slotClz f d a)
  | .popc f d a => some (slotPopc f d a)
  | .bfx f d a pos len1 => some (slotBfx f d a pos len1)
  | .bfi f d a pos len1 => some (slotBfi f d a pos len1)
  | .addsh f d a b sh => some (slotAddsh f d a b sh)
  | .li f d h hi lo => some (slotLi f d h hi lo)
  | .mfs f d sel => some (slotMfs f d sel)
  | .mts f a sel => some (slotMts f a sel)
  | .cpy l d sf s piece dk => some (slotCpy l d sf s piece dk)
  | .vadd o w => some (slotVadd o w)
  | .vsub o w => some (slotVsub o w)
  | .vmul o w => some (slotVmul o w)
  | .vfma o w => some (slotVfma o w)
  | .vfms o w => some (slotVfms o w)
  | .vexp2 o w => some (slotVexp2 o w)
  | .vlog2 o w => some (slotVlog2 o w)
  | .vrcp o w => some (slotVrcp o w)
  | .vrsq o w => some (slotVrsq o w)
  | .vcvt o w => some (slotVcvt o w)
  | .vreds o w => some (slotVreds o w)
  | .vscan o w => some (slotVscan o w)
  | .vmax o => some (slotVmax o)
  | .vmin o => some (slotVmin o)
  | .vabs o => some (slotVabs o)
  | .vneg o => some (slotVneg o)
  | .vcmp o => some (slotVcmp o)
  | .vsel o => some (slotVsel o)
  | .vand o => some (slotVand o)
  | .vor o => some (slotVor o)
  | .vxor o => some (slotVxor o)
  | .vnot o => some (slotVnot o)
  | .vshl o => some (slotVshl o)
  | .vshr o => some (slotVshr o)
  | .vsar o => some (slotVsar o)
  | .vredm o => some (slotVredm o)
  | .vbcast o => some (slotVbcast o)
  | .viota o => some (slotViota o)
  | .vgauss o => some (slotVgauss o)
  | .vrand o => some (slotVrand o)
  | .kand kd ka kb => some (slotKand kd ka kb)
  | .kor kd ka kb => some (slotKor kd ka kb)
  | .kxor kd ka kb => some (slotKxor kd ka kb)
  | .knot kd ka => some (slotKnot kd ka)
  | .kpop kd ka => some (slotKpop kd ka)
  | .pack o w => some (slotPack o w)
  | .vscale o w => some (slotVscale o w)
  | .swjoin o w => some (slotSwjoin o w)
  | .unpack o => some (slotUnpack o)
  | .bscale o => some (slotBscale o)
  | .perm o => some (slotPerm o)
  | .zip o => some (slotZip o)
  | .unzip o => some (slotUnzip o)
  | .xpose o => some (slotXpose o)
  | .rnsenc o => some (slotRnsenc o)
  | .rnsdec o => some (slotRnsdec o)
  | .cpye o => some (slotCpye o)
  | .swsplit o => some (slotSwsplit o)
  | .ld f sz o => some (slotLd f sz o)
  | .st f sz o => some (slotSt f sz o)
  | .vld d a k disp => some (slotVld d a k disp)
  | .vst d a k disp => some (slotVst d a k disp)
  | .vlds d a k ix esz => some (slotVlds d a k ix esz)
  | .vsts d a k ix esz => some (slotVsts d a k ix esz)
  | .vgth d a k ix esz => some (slotVgth d a k ix esz)
  | .vsct d a k ix esz => some (slotVsct d a k ix esz)
  | .bld o => some (slotBld o)
  | .bst o => some (slotBst o)
  | .atadd o => some (slotAtadd o)
  | .atmin o => some (slotAtmin o)
  | .atmax o => some (slotAtmax o)
  | .atxch o => some (slotAtxch o)
  | .ator o => some (slotAtor o)
  | .atand o => some (slotAtand o)
  | .atcas o => some (slotAtcas o)
  | .atcas2 o => some (slotAtcas2 o)
  | .fence scope kind => some (slotFence scope kind)
  | .cflush d a scope => some (slotCflush d a scope)
  | .cinv d a scope => some (slotCinv d a scope)
  | .pref a level disp => some (slotPref a level disp)
  | .amov d a imm => some (slotAmov d a imm)
  | .ainc d a imm => some (slotAinc d a imm)
  | .caskAlloc d a n => some (slotCaskAlloc d a n)
  | .caskFree d a n => some (slotCaskFree d a n)
  | .setkp key right => some (slotSetkp key right)
  | .mma o => some (slotMma o)
  | .mmag o => some (slotMmag o)
  | .mzero set ef => some (slotMzero set ef)
  | .mcvt o => some (slotMcvt o)
  | .ewr a n => some (slotEwr a n)
  | .erd d n => some (slotErd d n)
  | .cpyq q n => some (slotCpyq q n)
  | .qfence a mask evt => some (slotQfence a mask evt)
  | .rwait a h n8 => some (slotRwait a h n8)
  | .rfree a h n8 => some (slotRfree a h n8)
  | .radvP a h n8 => some (slotRadvP a h n8)
  | .radvC a h n8 => some (slotRadvC a h n8)
  | .waitt a => some (slotWaitt a)
  | .txput a set ne => some (slotTxput a set ne)
  | .txget a set ne => some (slotTxget a set ne)
  | .txred a b set ne => some (slotTxred a b set ne)
  | .txmc a b set ne => some (slotTxmc a b set ne)
  | .txflush a b all => some (slotTxflush a b all)
  | .txflushP a b all => some (slotTxflushP a b all)
  | .rxpost a b set ne => some (slotRxpost a b set ne)
  | .chsend a set ne => some (slotChsend a set ne)
  | .chrecv a set ne => some (slotChrecv a set ne)
  | .trig a b set opk => some (slotTrig a b set opk)
  | .ctradd a c => some (slotCtradd a c)
  | .ctrsnap a b => some (slotCtrsnap a b)
  | .ntr => some slotNtr
  | .task a => some (slotTask a)
  | .taskDone a b => some (slotTaskDone a b)
  | .sync level => some (slotSync level)
  | .phase p => some (slotPhase p)
  | .stepb b tag => some (slotStepb b tag)
  | .stepbRp b tag => some (slotStepbRp b tag)
  | .stepe b tag => some (slotStepe b tag)
  | .digest d a b q evt buf => some (slotDigest d a b q evt buf)
  | .digcmp a b => some (slotDigcmp a b)
  | .prof a n => some (slotProf a n)
  | .evpost c a tag => some (slotEvpost c a tag)
  | .nop => some slotNop
  | .bra dr off => some (slotBra dr off)
  | .bz dr f r off => some (slotBz dr f r off)
  | .bnz dr f r off => some (slotBnz dr f r off)
  | .bkall dr k off => some (slotBkall dr k off)
  | .bknone dr k off => some (slotBknone dr k off)
  | .call dr off => some (slotCall dr off)
  | .ret dr => some (slotRet dr)
  | .loop c stop => some (slotLoop c stop)
  | .loopx count stop => some (slotLoopx count stop)
  | .halt => some slotHalt
  | .trap code => some (slotTrap code)
  | .rtt dr => some (slotRtt dr)
  | .brk code => some (slotBrk code)
  | .waitev r => some (slotWaitev r)
  | .yield => some slotYield
  | .prio c => some (slotPrio c)
  | .ifence => some slotIfence
  | _ => none

end Sys2Proof.Machine
end

