-- ==== Sys2Proof/Machine/Bundle.lean ====
section
/-! DEFINITION. The bundle at a program counter, and the trap that it owes where it stands (R89, R220, R221, R376). -/

namespace Sys2Proof.Machine

open Sys2Proof

/-! ## The next bundle (R89, R220) -/

/-- The meaning of a decoded slot; one whose fields are not good is ILLEGAL. -/
def semOf (d : SlotDec) : SlotSem :=
  match d.instr.bind slotOf with
  | some sl => sl
  | none => { lane := d.lane, words := d.words, ill := true }

/-- The slots and words of the bundle at the program counter, or the trap of check 1 or 2. -/
def State.nextBundle (s : State) (w : At) : Except Trap (List SlotSem × Nat) :=
  match s.bundleWords w 8 (s.ctx w).pipe.pc with
  | .error t => .error t
  | .ok ws => match decodeBundle ws with
    | none => .error { trapAt 2 0 0 0 0 with lane := none }
    | some l => .ok (l.map semOf, ws.length)

/-- The trap that the bundle at a boundary takes there, with the words that LEN counts: that of the first check it fails, unless its fetch
or a stall holds it (R221, R376). -/
def State.dueTrap (s : State) (w : At) : Option (Trap × Nat) :=
  let c := s.ctx w
  if c.sched.run == .idle || c.sched.run == .held || c.sched.ending.isSome || (s.bundleWait w 8 c.pipe.pc).isSome then none
  else match s.nextBundle w with
  | .error t => some (t, s.lenAt w c.pipe.pc)
  | .ok (sls, nw) => match earlyTrap c.sup sls nw with
    | some t => some (t, nw)
    | none => match (s.landed w).stallOf w sls with
      | some _ => none
      | none => ((s.landed w).lateTrap w sls nw).map fun t => (t, nw)

end Sys2Proof.Machine
end

