-- ==== Sys2Proof/Machine/Dispatcher.lean ====
section
/-! DEFINITION. Dispatch into a context, the task sequencer, the end of a task, and the commands
of the dispatch engine (R347 to R351, R357, R358, R366 to R368, R375, R380, R382). -/

namespace Sys2Proof.Machine

open Sys2Proof

/-! ## Dispatch (R349) -/

/-- The extent that one page of a range gives, its rights cut to those requested (Tables 03-7, 15-2). -/
def pageExtent (x : Xl) (va rights : Nat) : Extent :=
  { w0 := mkW [(va / 4096 % 2 ^ 44, 12)]
    w1 := mkW [(x.pkey, 59), (x.okind, 57), (x.hbias.toNat, 56), (x.cpol, 54), (1, 4),
      (if x.x && rights.testBit 2 then 1 else 0, 3), (if x.w && rights.testBit 1 then 1 else 0, 2),
      (if x.r && rights.testBit 0 then 1 else 0, 1), (1, 0)]
    w2 := mkW [(x.pa / 4096 % 2 ^ 40, 12)] }

/-- Pages of an extent. -/
def Extent.pages (e : Extent) : Nat := fld e.w1 35 4

/-- Joins a page to the extent before it where it follows on physically with the same attributes (R59). -/
def joinExtent : List Extent → Extent → List Extent
  | [], e => [e]
  | f :: l, e =>
    if setFld f.w1 35 4 0 == setFld e.w1 35 4 0 && fld f.w2 51 12 + f.pages == fld e.w2 51 12 && f.pages + 1 < 2 ^ 32
    then { f with w1 := setFld f.w1 35 4 (f.pages + 1) } :: l else e :: f :: l

/-- The extents of a range, newest first; none where a page is not present or a rule refuses it, an address that is not canonical or
is in the global window among them (R49, R50). -/
def State.rangeExtents (s : State) (die asid va rights : Nat) : Nat → List Extent → Option (List Extent)
  | 0, l => some l
  | n + 1, l =>
    if 2 ^ 56 ≤ va || isGlobal (BitVec.ofNat 64 va) then none
    else match s.dieXlate die asid va with
    | .error _ => none
    | .ok x => s.rangeExtents die asid (va + 4096) rights n (joinExtent l (pageExtent x va rights))

/-- The extent table of a task's requests, in order; a range that does not fit is left to the TLBs (Table 15-2). -/
def State.extentTable (s : State) (die asid : Nat) (reqs : List (W64 × W64)) : Tab Extent :=
  (reqs.foldl (fun (acc : List Extent) q =>
    match s.rangeExtents die asid q.1.toNat (fld q.2 2 0) (fld q.2 34 3) [] with
    | some l => if acc.length + l.length ≤ 32 then acc ++ l.reverse else acc
    | none => acc) []).zipIdx.map fun p => (p.2, p.1)

/-- The ring table at dispatch (R113, R349). -/
def ringTable (gang : Nat) (bs : List (W64 × W64)) : Tab W64 :=
  (bs.filter fun b => bindKind b == 1 || bindKind b == 2).foldl (fun t b =>
    let h := bindH b
    let pipe := bindKind b == 2
    let k := fld b.1 57 50
    let base := if pipe then Config.pipeBase gang k else b.2
    let w1 := mkW [(1, 63), (pipe.toNat, 62), (if pipe then (Config.pipeEntry gang k).toNat else 0, 54), (fld b.1 28 0, 0)]
    tset (tset t (4 * h) base) (4 * h + 1) w1) []

/-- What a launch gives a task beside its record: its id and logical index, its number in the launch, its address space, its
queue's class ceiling, its save area, its queue, its interface, and whether supervisor mode is honoured. -/
structure Launch where
  trid    : Nat
  logidx  : W64
  j       : Nat
  asid    : Nat
  pmax    : Nat
  save    : W64
  keep    : Bool
  queue   : Option (Nat × Nat)
  counted : Bool
  vi      : Nat
  sup     : Bool
  dynKey  : Nat

/-- The context of a task at dispatch (R349). -/
def State.newCtx (s : State) (die : Nat) (r : RecData) (a : Launch) : Ctx :=
  let w0 := r.w 0
  let max' := min (fld w0 51 50) a.pmax
  let dom := fun i =>
    let w := r.w (11 + i)
    (i, if fld w 39 20 = 0 then 0 else setFld w 19 0 (fld w 19 0 + a.j))
  { Ctx.reset with
    regs := { Regs.reset with x := (List.range 8).map fun i => (i + 1, r.w (24 + i)) }
    sys := { Sys.reset with
             taskid := BitVec.ofNat 64 (a.trid % 2 ^ 24), logidx := a.logidx &&& sysMask 1, asid := BitVec.ofNat 64 a.asid,
             tstate := if a.sup && r.sup then 1 else 0,
             prioclass := mkW [(max', 4), (min (fld w0 53 52) max', 0)],
             dom := (List.range 5).map dom, codebase := r.w 1 &&& ~~~3#64, codelimit := r.w 2 &&& ~~~3#64 }
    eng := { Eng.reset with rt := ringTable r.gangid r.binds }
    pipe := { Pipe.reset with pc := r.w 3 &&& ~~~3#64 }
    sched := { Sched.reset with run := .ready }
    phases := r.phases.map phaseOf, extents := s.extentTable die a.asid r.exts, trid := some a.trid }

/-- What is kept of a launch while its task lives. -/
def taskOfRec (w : At) (r : RecData) (a : Launch) : Task :=
  let w0 := r.w 0
  let w17 := r.w 17
  { launch := r, det := bit w0 59, sup := a.sup && r.sup, lren := bit w0 57, ker := fld (r.w 4) 39 20
    codebase := r.w 1 &&& ~~~3#64, stream := r.w 18, nest := bit w17 31, dyn := bit w17 30, ben := bit w17 29, rowloop := fld w17 26 25,
    block := fld w17 15 8, order := fld w17 7 0,
    n := [fld (r.w 16) 14 0, fld (r.w 16) 29 15, fld (r.w 16) 44 30, fld (r.w 16) 59 45], cgrp := r.group,
    save := a.save, keep := a.keep, queue := a.queue, asid := a.asid, core := w.core, ctx := w.ctx, resident := false, saved := false,
    gang := if r.gang then some (r.gangid, fld (r.w 10) 31 24) else none, vi := a.vi, die := dieOf w.core,
    writes := [], waitSync := none, ecc := false, counted := a.counted, dynKey := a.dynKey, extents := [], phases := [],
    holds := [], owed := [], leesAway := [], maskAway := [], mmagAway := [], trapAway := [], evqAway := 0 }

/-- The pointers of some pipes of a gang are 0 (R113). -/
def State.openPipes (s : State) (clu gang : Nat) (pipes : List Nat) : State :=
  pipes.foldl (fun s k => s.updClu clu fun c =>
    { c with pipes := tset c.pipes (Config.pipeEntry gang k).toNat ⟨0, 0, 0, []⟩ }) s

/-- The pipes that a gang's member opens as it is dispatched: the first member of a launch those of all its records, a member that the
work distributor launches on its own account those that no live member has bound (R113, R349). -/
def State.newPipes (s : State) (r : RecData) (pkt : Option QPkt) : List Nat :=
  let live := (s.tasks.filter fun t => (t.2.gang.map (·.1)) == some r.gangid).map fun t => t.2.launch.pipes
  match pkt with
  | some k => if k.todo.length = k.recs.length then (k.recs.map RecData.pipes).flatten else []
  | none => r.pipes.filter fun p => !(live.flatten.contains p)

/-- Whether phase 0 fails its check, so that the dispatch fails with OVERLAP (R345). -/
def phase0Bad (r : RecData) : Bool := bit (r.w 0) 59 && phaseClash (r.phases.map phaseOf) 0

/-- Dispatches a task into a context, as a PLACE decision; a failed phase 0 gives a fault record and no task. -/
def State.place (s : State) (w : At) (r : RecData) (a : Launch) : State :=
  let die := dieOf w.core
  if phase0Bad r then
    s.mail die 0 [mkW [(a.trid, 40), (w.core, 31), (w.ctx, 29), (a.asid, 19)],
      (Trap.tcause { trapAt 10 0 0 0 0 with lane := none }), 0, r.w 3, a.save, BitVec.ofNat 64 s.cycle, 0, 0]
  else
    let c := s.newCtx die r a
    let s := { s with tasks := tset s.tasks a.trid (taskOfRec w r a) }
    s.updCtx w (fun _ => c) |>.decide die 1 a.asid a.trid w.core w.ctx a.logidx []

/-! ## Packets of a queue -/

/-- Changes a packet of a queue. -/
def State.updPkt (s : State) (q i : Nat) (f : QPkt → QPkt) : State :=
  match tget? s.queues q with
  | some x => { s with queues := tset s.queues q { x with pkts := mapIf (fun k => k.index == i) f x.pkts } }
  | none => s

/-! ## The end of a task (R129, R320, R357, R358) -/

/-- Withdraws every placement entry that a task owns, by installs with V = 0 (R129). -/
def State.withdraw (s : State) (trid asid : Nat) : State :=
  ((s.commOf asid).table.filter fun p => s.ownerKey p.2.words == some trid && plV p.2.words).foldl (fun s p =>
    s.plInstall asid p.1 false (p.2.words.set 6 (setFld (wd p.2.words 6) 63 63 0))) s

/-- Takes an ended task out of its launch. -/
def State.leaveLaunch (s : State) (t : Task) (fault : Bool) : State :=
  match t.queue with
  | some (q, i) =>
    if t.counted then s.updPkt q i fun k => { k with left := k.left - 1, fault := k.fault || fault } else s
  | none => s

/-- The presses that a task has issued to keep its id once it has ended (R402). -/
def Core.endIssuer (k : Core) (trid : Nat) : Core :=
  { k with press := k.press.map fun p => (p.1, { p.2 with
      issuers := p.2.issuers.map fun i => if i == (trid, false) then (idOf trid, true) else i }) }

/-- What every end of a task does: its launch, its completion group, its placement entries, and its record. -/
def State.dropTask (s : State) (trid : Nat) (t : Task) (fault : Bool) : State :=
  let node := if t.saved then treeSave (clusterOf t.core) else treeCore t.core
  let s := s.withdraw trid t.asid
  let s := s.leaveLaunch t fault
  let s := { s with
    tasks := tdel s.tasks trid
    cores := s.cores.map fun (k : Nat × Core) => (k.1, k.2.endIssuer trid)
    releases := s.releases.filter fun r => r.trid != trid
    cacheOps := s.cacheOps.filter fun o => o.trid != trid }
  s.treeMove t.die t.cgrp none (some node)

/-- Ends the task of a context with an exit status (R320): the work distributor is told, and the context is Idle. A pre-emption command
that still waited for it is then over. -/
def State.endTask (s : State) (w : At) (status : W64) : State :=
  let c := s.ctx w
  match c.trid, s.taskOf w with
  | some trid, some t =>
    let s := s.mail (dieOf w.core) 3 [BitVec.ofNat 64 (idOf trid), status]
    ((s.dropTask trid t false).vacate w).cmdsDone (dieOf w.core) t.asid ((c.sched.preempt.map (·.donep)).getD [])
  | _, _ => s

/-- Suspends the context of a task whose completion access failed: its DONE is the resume point (R320). -/
def State.endFail (s : State) (w : At) (t : Trap) : State :=
  (s.addDeferred w { t with lane := some 6 }).updSched w fun k => { k with ending := none, hold := none }

/-- Performs the completion access of an ending task, an atadd.rel.dev (R320, R340): ended, held with a page request, or suspended. One
to another device is sent as a reduction, and the task ends once it is answered (R150, R334). -/
def State.endAdd (s : State) (w : At) (status xb : W64) : State :=
  let c := s.ctx w
  if isGlobal xb then
    if s.globalFault (dieOf w.core) c.asid xb then s.endFail w (trapDeferred 6 4 3 xb false none)
    else (s.sendGlobal w c { bundle := c.pipe.pc, va := xb, op := 5, asz := 1, w2 := 1, sync := true, n := 8 }).updSched w fun k =>
      { k with ending := some (status, 1) }
  else match s.coreWalkWait w.core c.asid (c.extentFor xb.toNat 8) xb 8 with
  | some f => f s
  | none => match s.xlate w c.asid (c.extentFor xb.toNat 8) xb .rmw c.sys.kperm with
  | .error f =>
    if f.pauses c.sched.hold then
      if c.sched.hold.isSome then s
      else (s.updSched w fun k => { k with hold := some { asid := c.asid, va := xb, declined := false } }).pageRequest
        (dieOf w.core) c.asid xb 1
    else s.endFail w (trapDeferred f.cause.1 4 f.cause.2 xb false none)
  | .ok x =>
    let o := ordOf x true 4 true
    if s.hostLinkBad w x xb 8 true then s.endFail w (trapDeferred 22 4 0 xb false (some c.pipe.pc))
    else if isDevFrame x.pa || s.noAtomicOp x 0 then s.endFail w (trapDeferred 6 4 5 xb false none)
    else match s.placeWait (clusterOf w.core) x o.wide true 8 with
    | some f => f s
    | none =>
      if !(s.scopeOk (clusterOf w.core) x o.wide (domOf w o.scope)) then s.endFail w (trapDeferred 9 4 0 xb false none)
      else ((s.performAtomic w x o c.asid 0 8 1 0).2).endTask w status

/-- Whether an ending task may end now. -/
def State.endReady (s : State) (w : At) : Bool := (s.ctx w).sched.ending.isSome && s.mayEnd w

/-- TASK_END (R320). -/
def State.taskEnd (s : State) (w : At) : State :=
  match (s.ctx w).sched.ending with
  | none => s
  | some (status, xb) =>
    if !s.endReady w then s else if xb.toNat ≤ 1 then s.endTask w status else s.endAdd w status xb

/-- The first task of an id that is saved or suspended. -/
def State.stoppedKey (s : State) (trid : Nat) : Option Nat :=
  (s.named trid).find? fun k => match tget? s.tasks k with
    | some t => t.saved || (s.ctx ⟨t.core, t.ctx⟩).sched.run == .held
    | none => false

/-- TASK_ENDED_BY_FIRMWARE (R68, R375): a suspended task is ended, its lees entries and held releases are discarded, and its
queue takes TASKFAULT. -/
def State.taskKilled (s : State) (trid : Nat) : State :=
  match s.stoppedKey trid with
  | none => s
  | some k => match tget? s.tasks k with
    | none => s
    | some t =>
      let s := (s.dropTask k t true).queueFault t
      if t.saved then s else s.vacate ⟨t.core, t.ctx⟩

/-! ## The task sequencer (R357) -/

/-- Whether a context may take a task: it is Idle, and its core is neither offline nor about to be remapped (R382, R403). -/
def State.isIdle (s : State) (w : At) : Bool :=
  (s.ctx w).trid.isNone && !(s.core w.core).offline && !((s.die (dieOf w.core)).cmds.head?.any fun c =>
    fld (wd c.words 0) 63 56 == 5 && fld (wd c.words 0) 55 47 == w.core)

/-- The contexts of a cluster in the order the sequencer tries them: the issuing core's first. -/
def seqOrder (clu core : Nat) : List At :=
  (List.range 4).map (fun c => ⟨core, c⟩) ++
  ((List.range 64).map fun k => (List.range 4).map fun c => (⟨clu * 64 + k, c⟩ : At)).flatten

/-- The context that the head record of a sequencer goes to: under replay the recorded one. -/
def State.seqTarget (s : State) (clu : Nat) (e : SeqEnt) : Option At :=
  let die := dieOfClu clu
  if s.replays die e.asid then
    let r := s.recorded die e.asid
    let w : At := ⟨fld (wd r 1) 39 31, fld (wd r 1) 30 29⟩
    let mine := e.data.all fun d => d.trid == fld (wd r 1) 63 40
    if fld (wd r 0) 63 58 == 1 && mine && clusterOf w.core == clu && s.isIdle w then some w else none
  else (seqOrder clu e.core).find? fun w => s.isIdle w

/-- Refuses the head record of a sequencer: the work distributor is told, and the issuing task's launch ends with TASKFAULT
(R348). -/
def State.seqRefuse (s : State) (clu : Nat) (e : SeqEnt) : State :=
  let die := dieOfClu clu
  let s := s.mail die 3 [BitVec.ofNat 64 (idOf e.trid), e.va, 1]
  let s := match e.queue with
    | some (q, _) => s.qHalt q 2
    | none => s
  ((s.updClu clu fun c => { c with seq := c.seq.drop 1, seqHold := none }).treeMove die ((e.data.map RecData.group).getD 0) none
    (some (treeSeq clu))).treeSettle die

/-- Interface of the task that issued TASK, whose launch is a queue's. -/
def seqVi (e : SeqEnt) : Option Nat := e.queue.map fun q => q.1 / 512

/-- Dispatches the head record of a sequencer into a context (R350, R357, R358). -/
def State.seqPlace (s : State) (clu : Nat) (e : SeqEnt) (w : At) (r : RecData) : State :=
  let die := dieOfClu clu
  let trid := s.freshKey r.trid
  let npart := fld (r.w 21) 31 16
  let a : Launch :=
    { trid := trid, logidx := mkW [(if npart = 0 then 1 else npart, 16), (fld (r.w 21) 15 0, 0)], j := 0, asid := e.asid,
      pmax := (e.queue.map fun q => fld (s.qcbW q.1 1) 41 40).getD 3,
      save := (Config.saveArea trid).setWidth 64 <<< 12, keep := Config.saveKeep trid, queue := e.queue, counted := false,
      vi := (seqVi e).getD (((tget? s.tasks e.trid).map (·.vi)).getD 0), sup := false, dynKey := 2 ^ 80 + trid }
  let s := s.updClu clu fun c =>
    { c with seq := c.seq.drop 1, seqHold := none, dyn := tset c.dyn a.dynKey { rank := 0, parts := 1, pos := 0 } }
  (s.treeMove die r.group (if phase0Bad r then none else some (treeCore w.core)) (some (treeSeq clu))).place w r a

/-- Whether a queue bound to a die is active. -/
def State.activeOn (s : State) (die : Nat) : Bool := s.queues.any fun p => p.2.die == die && s.qState p.1 == 1

/-- Whether the recorded placement of the head record names an offline core (R371). -/
def State.seqDiverges (s : State) (clu : Nat) (e : SeqEnt) : Bool :=
  let die := dieOfClu clu
  let r := s.recorded die e.asid
  s.replays die e.asid && fld (wd r 0) 63 58 == 1 && clusterOf (fld (wd r 1) 39 31) == clu &&
  (s.core (fld (wd r 1) 39 31)).offline

/-- Whether the quota CTXMAX of an interface leaves no context for a task of its queues (R395). -/
def State.viFull (s : State) (vi : Nat) : Bool :=
  fld (s.vi vi 0) 31 20 ≤ (s.tasks.filter fun t => t.2.vi == vi && !t.2.saved).length

/-- Whether the head record of a sequencer may be tried now: it may be dispatched, or it pauses or halts the die's queues. -/
def State.seqReady (s : State) (clu : Nat) : Bool :=
  let die := dieOfClu clu
  match (s.clu clu).seq with
  | [] => false
  | e :: _ =>
    if !s.mayDecide die 1 || s.seqDiverges clu e then s.activeOn die
    else (((s.clu clu).seqHold.map (·.declined)).getD true) && (s.seqTarget clu e).isSome &&
      !((seqVi e).any fun v => s.viFull v)

/-- Launches the head record of a sequencer once it has been read (R348, R357). -/
def State.seqLaunch (s : State) (clu : Nat) (e : SeqEnt) (r : RecData) : State :=
  if s.recRefused (dieOfClu clu) e.asid r || r.rankBad 0 || r.gang || r.sup then s.seqRefuse clu e
  else match s.seqTarget clu e with
  | some w => s.seqPlace clu e w r
  | none => s

/-- Reads the head record of a sequencer: it is kept, waits for a page or its bias, or is refused (R319, R387). -/
def State.seqFetch (s : State) (clu : Nat) (e : SeqEnt) : State :=
  let die := dieOfClu clu
  match s.recBias (taskReader clu e.asid e.kperm) die e.asid e.va with
  | some f => f s
  | none => match s.seqTake clu e with
    | .error none => s.seqRefuse clu e
    | .error (some (f, va)) =>
      if f.pauses (s.clu clu).seqHold then
        (s.updClu clu fun c => { c with seqHold := some { asid := e.asid, va := va, declined := false } }).pageRequest die e.asid va 0
      else s.seqRefuse clu e
    | .ok (r, s) =>
      let e' := { e with data := some r }
      ((s.updClu clu fun c => { c with seq := e' :: c.seq.drop 1, seqHold := none }).treeSettle die).seqLaunch clu e' r

/-- TASK_SEQUENCER_DISPATCH (R319, R357). -/
def State.seqDispatch (s : State) (clu : Nat) : State :=
  let die := dieOfClu clu
  match (s.clu clu).seq with
  | [] => s
  | e :: _ =>
    if !s.seqReady clu then s
    else if !s.mayDecide die 1 then s.logFull die
    else if s.seqDiverges clu e then s.replayDiv die
    else match e.data with
    | some r => s.seqLaunch clu e r
    | none => s.seqFetch clu e

/-! ## Commands of the dispatch engine (R368) -/

/-- Word i of a command. -/
def Cmd.w (c : Cmd) (i : Nat) : W64 := wd c.words i
/-- The context that a command names. -/
def Cmd.at_ (c : Cmd) : At := ⟨fld (c.w 0) 55 47, fld (c.w 0) 46 45⟩
/-- The task that a command names. -/
def Cmd.trid (c : Cmd) : Nat := fld (c.w 0) 23 0
/-- OP of a command. -/
def Cmd.op (c : Cmd) : Nat := fld (c.w 0) 63 56
/-- REC of a command. -/
def Cmd.rec_ (c : Cmd) : W64 := c.w 1
/-- SAVE of a command. -/
def Cmd.save (c : Cmd) : W64 := c.w 3
/-- DONEP of a command. -/
def Cmd.donep (c : Cmd) : W64 := c.w 4

/-- The command of words and of the choices beside them. -/
def cmdOf (w0 rec' logidx : W64) (save : SaveTo) (donep w5 : W64) : Cmd :=
  { words := [w0, rec', logidx, save.addr, donep, w5, 0, 0], keep := save.keep, behalf := save.behalf }

/-- Whether a command is refused for what it says: an OP that is none of Table 15-10, or a reserved field that is not 0. -/
def Cmd.bad (c : Cmd) : Bool :=
  c.op = 0 || 6 < c.op || fld (c.w 0) 44 24 != 0 || fld (c.w 5) 63 16 != 0 || c.w 6 != 0 || c.w 7 != 0

/-- Tells the work distributor of a refused command, with the ERR code that a queue would take; it has no completion add (log 66). -/
def State.refuse (s : State) (die : Nat) (c : Cmd) (err : Nat) : State := s.mail die 3 [BitVec.ofNat 64 c.trid, c.w 0, BitVec.ofNat 64 err]

/-- Whether a context has been asked to stop, or ends. -/
def Ctx.leaving (c : Ctx) : Bool := c.sched.stop.isSome || c.sched.preempt.isSome || c.sched.ending.isSome

/-- Whether the recorded decision that comes next is of a kind and a task, and cannot be taken on this context: it names another, or its
core is offline (R371). -/
def State.cmdDiverges (s : State) (die asid kind trid : Nat) (w : At) : Bool :=
  let r := s.recorded die asid
  s.replays die asid && fld (wd r 0) 63 58 == kind && fld (wd r 1) 63 40 == trid % 2 ^ 24 &&
  ((s.core w.core).offline || !s.follows die asid kind w.core w.ctx)

/-- The queue and packet whose launch still has a task of this id to dispatch, no earlier packet of the queue having any
(R355); the launch belongs to the die that its queue was bound to (R356). -/
def State.launchOf (s : State) (die trid : Nat) : Option (Nat × QPkt) :=
  s.queues.findSome? fun p => match p.2.pkts.find? fun k => !k.todo.isEmpty with
    | some k => if k.die == die && k.todo.contains trid then some (p.1, k) else none
    | none => none

/-- Whether a packet's cluster mask takes a cluster (R356). -/
def maskTakes (mask clu : Nat) : Bool := mask == 0 || mask.testBit clu

/-- The clusters of a die that a mask names (R356). -/
def maskClus (die mask : Nat) : List Nat := [2 * die, 2 * die + 1].filter (maskTakes mask)

/-- The record of a launch from which its next task of an id comes: the one record, or of a gang's the member of that id that comes
next. -/
def QPkt.recFor (k : QPkt) (trid : Nat) : Option RecData :=
  match k.recs with
  | [r] => some r
  | l =>
    let mine := l.filter fun r => r.trid == trid
    mine[mine.length - (k.todo.filter (· == trid)).length]?

/-- The record of a NEW: as the launch took it (R347), or, of a launch that the work distributor makes on its own account, as it stands
at the physical address of the command; none where one of its lists cannot be read. -/
def State.newRec (s : State) (die trid : Nat) (rec' : W64) (host : Option (Nat × QPkt)) : Option (RecData × State) :=
  match host with
  | some (_, k) => (k.recFor trid).map fun r => (r, s)
  | none =>
    let ws := s.physWords rec'.toNat 32
    match readLists (launchReader die (fld (wd ws 0) 49 40)) ws s with
    | .ok r => some r
    | .error _ => none

/-- What a NEW gives a task. -/
def State.newLaunch (s : State) (r : RecData) (host : Option (Nat × QPkt)) (c : Cmd) (id asid : Nat) : Launch :=
  { trid := id, logidx := c.w 2, j := (c.trid + 2 ^ 24 - r.trid) % 2 ^ 24, asid := asid,
    pmax := (host.map fun h => fld (s.qcbW h.1 1) 41 40).getD 3, save := c.save, keep := c.keep,
    queue := host.map fun h => (h.1, h.2.index), counted := host.isSome,
    vi := match host with
      | some h => h.1 / 512
      | none => c.behalf.getD 0
    sup := host.isNone
    dynKey := match host with
      | some (q, k) => 2 ^ 33 * q + k.index + 1
      | none => 2 ^ 80 + id }

/-- The dynamic range that a launch gives a cluster (R361). -/
def newRange (die clu : Nat) (host : Option (Nat × QPkt)) : DynRange :=
  match host with
  | none => { rank := 0, parts := 1, pos := 0 }
  | some (_, k) =>
    let clus := maskClus die (fld (wd k.words 3) 7 0)
    { rank := clus.findIdx (· == clu), parts := min (fld (wd k.words 2) 63 32) clus.length, pos := 0 }

/-- The queue launch that a NEW serves, and the ASID that its task takes (R51). -/
def State.newHost (s : State) (die : Nat) (c : Cmd) : Option (Nat × QPkt) × Nat :=
  let host := s.launchOf die c.trid
  (host, match host with
    | some (q, _) => fld (s.qcbW q 1) 57 48
    | none => fld (s.homeW c.rec_.toNat) 49 40)

/-- Refuses a NEW with a launch fault: a host launch halts its queue (R348). -/
def State.newRefuse (s : State) (die : Nat) (c : Cmd) (host : Option (Nat × QPkt)) : State :=
  let s := s.refuse die c 1
  match host with
  | some h => s.qHalt h.1 1
  | none => s

/-- Whether the ASID of a launch that the work distributor makes on an interface's behalf lies outside the interface's range (R395). -/
def State.asidOutside (s : State) (c : Cmd) (asid : Nat) : Bool :=
  c.behalf.any fun v => asid < fld (s.vi v 0) 62 53 || fld (s.vi v 0) 62 53 + fld (s.vi v 0) 52 42 ≤ asid

/-- Dispatches the record of a NEW into its context, which ends the command. -/
def State.newPlace (s : State) (r : RecData) (host : Option (Nat × QPkt)) (c : Cmd) (asid : Nat) : State :=
  let w := c.at_
  let die := dieOf w.core
  let clu := clusterOf w.core
  let a := s.newLaunch r host c (s.freshKey c.trid) asid
  let s := s.updClu clu fun x =>
    { x with dyn := if host.isSome && (tget? x.dyn a.dynKey).isSome then x.dyn else tset x.dyn a.dynKey (newRange die clu host) }
  let s := if r.gang then s.openPipes clu r.gangid (s.newPipes r (host.map (·.2))) else s
  let s := match host with
    | some (q, k) => s.updPkt q k.index fun x =>
        { x with todo := x.todo.erase c.trid, left := if phase0Bad r then x.left - 1 else x.left }
    | none => s
  let s := if phase0Bad r then s else s.treeMove die r.group (some (treeCore w.core)) none
  (s.place w r a).cmdDone die asid c.donep

/-- NEW (R349, R350, R368): whether the command leaves the ring, and the state. It waits for room in the trace, for its turn under
replay, for a context that is to be left, and for the quota of its interface; a member of a gang waits beside the ring for its
fellows. -/
def State.cmdNew (s : State) (die : Nat) (c : Cmd) : Bool × State :=
  let w := c.at_
  let h := s.newHost die c
  let mask := (h.1.map fun h => fld (wd h.2.words 3) 7 0).getD 0
  if !s.mayDecide die 1 then (false, s.logFull die)
  else if s.cmdDiverges die h.2 1 c.trid w then (true, s.replayDiv die)
  else if die != dieOf w.core || (s.core w.core).offline || !maskTakes mask (clusterOf w.core) then (true, s.refuse die c 1)
  else match s.newRec die c.trid c.rec_ h.1 with
  | none => (true, s.newRefuse die c h.1)
  | some (r, s') =>
    if s.recRefused die h.2 r || r.rankBad ((c.trid + 2 ^ 24 - r.trid) % 2 ^ 24) || s.asidOutside c h.2 then
      (true, s.newRefuse die c h.1)
    else if r.gang then (true, s'.updDie die fun d => { d with gang := d.gang ++ [c] })
    else if !s.isIdle w then (if (s.ctx w).leaving then (false, s) else (true, s.refuse die c 1))
    else if !s.mayTake die h.2 1 c.trid w.core w.ctx || ((h.1.map fun h => h.1 / 512).or c.behalf).any s.viFull then (false, s)
    else (true, s'.newPlace r h.1 c h.2)

/-- Whether a saved task may resume on a context, once that is idle (R85, R214, R367, R381). -/
def State.mayResume (s : State) (w : At) (trid : Nat) (t : Task) : Bool :=
  let old := clusterOf t.core
  let holdsCask := (s.clu old).cask.any fun p => p.2.asid == t.asid
  let openStep := (s.die t.die).blocks.any fun b => bkOpen b.2 && (s.stepOf t.die b.1).trid == trid
  let bound := t.nest && t.ben && bkOpen (s.block t.die t.block)
  t.saved && !t.ecc && !(s.core w.core).offline && (!t.resident || w.core == t.core) && (!holdsCask || clusterOf w.core == old) &&
  (!(openStep || bound) || dieOf w.core == t.die)

/-- Rewrites the core and cluster in the placement entries of a task that moves, by rehoming installs (R129). -/
def State.rehome (s : State) (trid asid : Nat) (w : At) : State :=
  ((s.commOf asid).table.filter fun p => s.ownerKey p.2.words == some trid && plV p.2.words).foldl (fun s p =>
    let e := p.2.words
    let core := fun (x : W64) => if bufSpace x = 3 then x else setFld x 59 54 (w.core % 64)
    s.plInstall asid p.1 false
      (((e.set 0 (core (wd e 0))).set 5 (core (wd e 5))).set 7 (setFld (wd e 7) 39 37 (clusterOf w.core)))) s

/-- The task that a RESUME names: of the tasks of its id the saved one whose save area it names, else the first saved one. -/
def State.savedKey (s : State) (trid : Nat) (save : W64) : Option Nat :=
  let l := (s.named trid).filter fun k => ((tget? s.tasks k).map (·.saved)).getD false
  match l.find? fun k => (tget? s.tasks k).map (·.save) == some save with
  | some k => some k
  | none => l.head?

/-- Resumes a saved task into the context of a command, which ends it: an armed operation of the task whose predicate came true while it
was away fires now (R148, R367, R380). -/
def State.resumeNow (s : State) (die : Nat) (c : Cmd) (trid : Nat) (t : Task) : State :=
  let w := c.at_
  let s := s.treeMove t.die t.cgrp (if t.die = die then some (treeCore w.core) else none) (some (treeSave (clusterOf t.core)))
  let s := if t.die = die then s else s.treeMove die t.cgrp (some (treeCore w.core)) none
  let s := s.resumeCtx w trid t t.save.toNat
  let s := if t.resident then s else s.rehome trid t.asid w
  let s := s.updTask trid fun t => { t with save := c.save, keep := c.keep, resident := false, owed := [] }
  ((s.decide die 4 t.asid trid w.core w.ctx (BitVec.ofNat 64 t.core) []).evalTrigs t.asid).cmdDone die t.asid c.donep

/-- RESUME (R367, R368, R380); a member of a gang waits beside the ring for its fellows. -/
def State.cmdResume (s : State) (die : Nat) (c : Cmd) : Bool × State :=
  let w := c.at_
  let trid := (s.savedKey c.trid c.save).getD 0
  match (s.savedKey c.trid c.save).bind fun k => tget? s.tasks k with
  | none => (if (s.named c.trid).any fun k => ((tget? s.tasks k).map fun t => (s.ctx ⟨t.core, t.ctx⟩).leaving).getD false then (false, s)
      else (true, s.refuse die c 1))
  | some t =>
    if !s.mayDecide die 1 then (false, s.logFull die)
    else if s.cmdDiverges die t.asid 4 trid w then (true, s.replayDiv die)
    else if die != dieOf w.core || !s.mayResume w trid t then (true, s.refuse die c 1)
    else if t.gang.isSome then (true, s.updDie die fun d => { d with gang := d.gang ++ [c] })
    else if !s.isIdle w then (if (s.ctx w).leaving then (false, s) else (true, s.refuse die c 1))
    else if !s.mayTake die t.asid 4 trid w.core w.ctx || (t.queue.any fun q => s.viFull (q.1 / 512)) then (false, s)
    else (true, s.resumeNow die c trid t)

/-! ## Gangs (R113, R351) -/

/-- The store entries and the regions of the pipes that a record binds: entry, base, and bytes. -/
def RecData.pipeUse (r : RecData) : List (Nat × W64 × Nat) :=
  (r.binds.filter fun b => bindKind b == 2).map fun b =>
    let k := fld b.1 57 50
    ((Config.pipeEntry r.gangid k).toNat, Config.pipeBase r.gangid k, fld b.1 28 16 * (fld b.1 15 0 * 32))

/-- Whether the pipe-store entries and the regions of a gang's pipes are free in a cluster: no other gang with a member there uses
them. -/
def State.pipesFree (s : State) (clu : Nat) (rs : List RecData) : Bool :=
  let mine := (rs.map RecData.pipeUse).flatten
  let gid := (rs.head?.map RecData.gangid).getD 0
  let others := ((s.tasks.filter fun t => t.2.gang.any (fun g => g.1 != gid) && clusterOf t.2.core == clu).map fun t =>
    t.2.launch.pipeUse).flatten
  mine.all fun a => others.all fun b => a.1 != b.1 &&
    (bufSpace a.2.1 != bufSpace b.2.1 || fld a.2.1 59 54 != fld b.2.1 59 54 ||
      bufOff a.2.1 + a.2.2 ≤ bufOff b.2.1 || bufOff b.2.1 + b.2.2 ≤ bufOff a.2.1)

/-- The records of the NEW commands of a gang that wait, with their commands. -/
def State.gangNews (s : State) (die gid : Nat) : List (Cmd × RecData) :=
  (s.die die).gang.filterMap fun c =>
    if c.op != 1 then none
    else match s.newRec die c.trid c.rec_ (s.newHost die c).1 with
      | some (r, _) => if r.gangid == gid then some (c, r) else none
      | none => none

/-- Whether contexts differ, are idle, and stand in one cluster. -/
def State.gangSeats (s : State) (l : List At) : Bool :=
  l.all s.isIdle && l.all (fun w => l.head?.any fun v => clusterOf v.core == clusterOf w.core) &&
  !repeats (l.map fun w => w.core * 4 + w.ctx)

/-- Whether the trace takes the decisions of a kind on the contexts of commands, one after the other (R371). -/
def State.gangTurn (s : State) (die asid kind : Nat) (l : List Cmd) : Bool :=
  s.mayDecide die l.length && (!s.replays die asid || l.zipIdx.all fun c =>
    let r := s.recordedAt die asid c.2
    fld (wd r 0) 63 58 == kind && fld (wd r 1) 39 31 == c.1.at_.core && fld (wd r 1) 30 29 == c.1.at_.ctx)

/-- Takes commands off the list of those that wait for their fellows. -/
def State.gangDrop (s : State) (die : Nat) (l : List Cmd) : State :=
  s.updDie die fun d => { d with gang := d.gang.filter fun c => !(l.contains c) }

/-- The records that the members of a gang have: of a host launch those that it took, else those of the commands. -/
def gangRecs (host : Option (Nat × QPkt)) (l : List (Cmd × RecData)) : List RecData :=
  match host with
  | some h => h.2.recs
  | none => l.map (·.2)

/-- Dispatches a gang all of whose NEW commands have come, once a context for each member, its store entries and its regions are free in
one cluster (R351); one that the work distributor launches on its own account is refused where its members disagree (R348). -/
def State.gangNew (s : State) (die gid : Nat) : State :=
  let l := s.gangNews die gid
  match l with
  | [] => s
  | (c0, r0) :: _ =>
    let cs := l.map (·.1)
    let h := s.newHost die c0
    let rs := gangRecs h.1 l
    if l.length < fld (r0.w 10) 39 32 then s
    else if h.1.isNone && (pipesClash rs || repeats (rs.map fun r => fld (r.w 10) 31 24) ||
        rs.any fun r => fld (r.w 10) 39 32 != rs.length || rs.length ≤ fld (r.w 10) 31 24) then
      cs.foldl (fun s c => s.newRefuse die c none) (s.gangDrop die cs)
    else if !s.gangSeats (cs.map Cmd.at_) || !s.pipesFree (clusterOf c0.at_.core) rs then s
    else if !s.mayDecide die l.length then s.logFull die
    else if !s.gangTurn die h.2 1 cs || ((h.1.map fun h => h.1 / 512).or c0.behalf).any s.viFull then s
    else l.foldl (fun (s : State) x =>
      let h := s.newHost die x.1
      s.newPlace x.2 h.1 x.1 h.2) (s.gangDrop die cs)

/-- The RESUME commands of a gang that wait, with the tasks they name. -/
def State.gangBack (s : State) (die gid : Nat) : List (Cmd × Nat) :=
  (s.die die).gang.filterMap fun c =>
    if c.op != 2 then none
    else match s.savedKey c.trid c.save with
      | some k => if (((tget? s.tasks k).bind (·.gang)).map (·.1)) == some gid then some (c, k) else none
      | none => none

/-- Resumes a gang all of whose members are saved and have their RESUME commands, in one cluster (R351, R367). -/
def State.gangResume (s : State) (die gid : Nat) : State :=
  let l := s.gangBack die gid
  let cs := l.map (·.1)
  let members := s.tasks.filter fun t => (t.2.gang.map (·.1)) == some gid
  let asid := (members.head?.map (·.2.asid)).getD 0
  if l.isEmpty || !(members.all fun t => t.2.saved && l.any fun x => x.2 == t.1) || !s.gangSeats (cs.map Cmd.at_) then s
  else if !s.mayDecide die l.length then s.logFull die
  else if !s.gangTurn die asid 4 cs then s
  else l.foldl (fun (s : State) x => match tget? s.tasks x.2 with
    | some t => s.resumeNow die x.1 x.2 t
    | none => s) (s.gangDrop die cs)

/-- The gangs that commands of a die name. -/
def State.gangIds (s : State) (die : Nat) : List Nat :=
  ((s.die die).gang.filterMap fun c =>
    if c.op = 1 then (s.newRec die c.trid c.rec_ (s.newHost die c).1).map fun r => r.1.gangid
    else ((s.savedKey c.trid c.save).bind fun k => (tget? s.tasks k).bind (·.gang)).map (·.1)).eraseDups

/-- Performs the commands for gangs that can be performed. -/
def State.gangAll (s : State) (die : Nat) : State :=
  if (s.die die).gang.isEmpty then s
  else (s.gangIds die).foldl (fun s g => (s.gangNew die g).gangResume die g) s

/-! ## Pre-emption (R366, R367, R376) -/

/-- Stops a context for a pre-emption or a remap: a trap that is due at its boundary goes first (R376). One that escalates takes the
save; after one that is delivered the stop stands at the handler's first bundle, and is then no soft one. -/
def State.stopDue (s : State) (w : At) (st : Stop) : State :=
  if (s.ctx w).sched.deferred != [] then s.suspend w
  else match s.dueTrap w with
  | none => s.stopAt w st
  | some (t, len) =>
    let s' := s.takeTrap w t (s.ctx w).pipe.pc len
    if !(s.ctx w).delivers t then s'
    else s'.stopAt w (if st.kind = 2 then { st with kind := 1, soft := true } else st)

/-- Stops a context for a hard pre-emption (R379, R380). A DONE that has sent its completion access to another device is let end. -/
def State.stopHard (s : State) (w : At) (p : Preempt) (soft : Bool) : State :=
  if (s.ctx w).sched.ending.any (·.2 == 1) then s
  else s.stopDue w { kind := 1, save := p.save, keep := p.keep, donep := p.donep, soft := soft }

/-- Whether a soft request is hard at once: without a loop record, or to a context that is Waiting (R366). -/
def State.hardAtOnce (s : State) (w : At) : Bool :=
  !(((s.taskOf w).map (·.lren)).getD false) || (s.ctx w).sched.run == .waiting

/-- The ASID of the first task of an id. -/
def State.asidOf (s : State) (trid : Nat) : Nat := (((s.named trid).head?.bind fun k => tget? s.tasks k).map (·.asid)).getD 0

/-- SOFTPRE and HARDPRE (R366, R367, R368). A command for a task that has ended or is saved is over; one for a task that is being saved
is served by that save (R376); the fellows of a gang's member are asked with it (R351). -/
def State.cmdPre (s : State) (die : Nat) (c : Cmd) (hard : Bool) : Bool × State :=
  let w := c.at_
  let x := s.ctx w
  if die != dieOf w.core then (true, s.refuse die c 1)
  else if x.trid.map idOf != some c.trid then (true, s.cmdDone die (s.asidOf c.trid) c.donep)
  else match x.sched.stop with
  | some st =>
    let st := if st.kind = 3 then st else { st with save := c.save, keep := c.keep }
    (true, s.updSched w fun k => { k with stop := some { st with donep := st.donep ++ [c.donep] } })
  | none =>
    if !s.mayDecide die 1 then (false, s.logFull die)
    else
      let p : Preempt := { hard := hard, since := s.cycle, issued := false, save := c.save, keep := c.keep,
                           donep := ((x.sched.preempt.map (·.donep)).getD []) ++ [c.donep], drain := false }
      let now := hard || s.hardAtOnce w
      let s := (s.updSched w fun k => { k with preempt := some { p with hard := now } }).askFellows w now
      (true, if now then s.stopHard w p (!hard) else s)

/-- Whether a context stands at its kernel-iteration boundary with a soft request (R366). -/
def State.softReady (s : State) (w : At) : Bool :=
  match (s.ctx w).sched.preempt, s.taskOf w with
  | some p, some t => !p.hard && p.issued && t.lren && (s.ctx w).sched.deferred.isEmpty && (s.ctx w).sched.stop.isNone &&
      (s.ctx w).sched.ending.isNone &&
      (s.ctx w).pipe.pc == t.codebase + BitVec.ofNat 64 (4 * t.ker)
  | _, _ => false

/-- The drain of a soft pre-emption lands every result (R252, R366). -/
def State.drained (s : State) (w : At) : State :=
  let n := (s.ctx w).pipe.drainTo ((s.ctx w).pipe.count - 1)
  s.updCtx w fun c => ({ c with pipe := { c.pipe with count := n } }).landTo n

/-- SOFTPRE_BOUNDARY (R366): issue stops, the drain lands every result, those of the walker once they have come, and the context is
saved; a trap that is due there goes first (R376). -/
def State.softBoundary (s : State) (w : At) : State :=
  if !s.softReady w then s
  else if !s.mayDecide (dieOf w.core) 1 then s.logFull (dieOf w.core)
  else match (s.ctx w).sched.preempt with
  | none => s
  | some p =>
    let st : Stop := { kind := 2, save := p.save, keep := p.keep, donep := p.donep, soft := false }
    if !p.drain && (s.dueTrap w).isSome then s.stopDue w st
    else if !(s.ctx w).pipe.ntr.isEmpty then s.updSched w fun k => { k with preempt := some { p with drain := true } }
    else (s.drained w).stopAt w st

/-- Whether a request has to stop its context now: a soft one that has not reached its boundary within 14,000 cycles (R366), or a hard
one that still stands. -/
def State.softLate (s : State) (w : At) : Bool :=
  match (s.ctx w).sched.preempt with
  | some p => (p.hard || (!p.drain && p.since + 14000 ≤ s.cycle)) && (s.ctx w).sched.stop.isNone
  | none => false

/-- SOFTPRE_TIMEOUT (R366). -/
def State.softTimeout (s : State) (w : At) : State :=
  if !s.softLate w then s
  else if !s.mayDecide (dieOf w.core) 1 then s.logFull (dieOf w.core)
  else match (s.ctx w).sched.preempt with
  | none => s
  | some p => s.stopHard w p (!p.hard)

/-! ## REMAP and WALK (R382, Table 16-11) -/

/-- Spares of a cluster: two (R12). -/
def sparesPerCluster : Nat := 2

/-- Whether a physical core is in use as a spare already. -/
def State.spareUsed (s : State) (p : Nat) : Bool := s.cores.any fun k => k.2.phys == p

/-- Stops the contexts of a core for a remap, with KIND 4 and its buffers kept (R376, R382). -/
def State.stopCore (s : State) (core : Nat) : State :=
  (List.range 4).foldl (fun (s : State) c =>
    let w : At := ⟨core, c⟩
    let k := (s.ctx w).sched
    match s.taskOf w with
    | some t =>
      if k.stop.isSome || k.ending.any (·.2 == 1) then s
      else s.stopDue w { kind := 4, save := t.save, keep := true, donep := (k.preempt.map (·.donep)).getD [], soft := false }
    | none => s) s

/-- REMAP (R382): every context of the core is stopped; once all are saved the spare takes the core number, its L1 data cache, L1
instruction cache and TLB start empty (R90). With no spare left the core goes offline (R403). DESIGN CHOICE: SPARE, to which the spec
gives no range, may be any number but 0 that no core in use bears; either of a cluster's two spares may bear it. -/
def State.cmdRemap (s : State) (die : Nat) (c : Cmd) : Bool × State :=
  let core := c.at_.core
  let clu := clusterOf core
  let spare := fld (c.w 5) 15 0
  let done := fun (s : State) => if c.donep = 0 then s else s.physAdd c.donep.toNat 1
  if die != dieOf core || spare = 0 || s.spareUsed spare then (true, s.refuse die c 1)
  else if sparesPerCluster ≤ tget 0 s.spares clu then (true, done (s.updCore core fun k => { k with offline := true }))
  else if !s.mayDecide die 1 then (false, s.logFull die)
  else if !s.mayTake die 0 5 0 core 0 then (false, s)
  else
    let s := s.stopCore core
    if (List.range 4).any fun c => (s.ctx ⟨core, c⟩).trid.isSome then (false, s)
    else
      let s := s.updCore core fun k =>
        { k with phys := spare, offline := false, tlb := [], l1 := [], l1i := [],
                 press := k.press.map fun p => (p.1, { p.2 with failed := false, issuers := [] }) }
      let s := { s with spares := tset s.spares clu (tget 0 s.spares clu + 1) }
      (true, done (s.decide die 5 0 0 core 0 (BitVec.ofNat 64 spare) []))

/-- WALK (R368): the walker takes the nest position that stands in the save area (Table 16-11). -/
def State.cmdWalk (s : State) (die : Nat) (c : Cmd) : Bool × State :=
  let w := c.at_
  if die != dieOf w.core || (s.ctx w).trid.map idOf != some c.trid then (true, s.refuse die c 1)
  else
    let k := s.imgWs c.save.toNat 0x420 4
    let x : Slice := { lo := fld (wd k 0) 63 32, hi := fld (wd k 0) 31 0, pos := fld (wd k 1) 63 32, reslice := bit (wd k 1) 2,
                       have_ := bit (wd k 1) 1, stepno := fld (wd k 2) 63 48 }
    (true, (s.updCtx w fun c => { c with slice := x }).cmdDone die (s.ctx w).asid c.donep)

/-! ## The ring (R368) -/

/-- Tries a command: whether it leaves the ring, and the state. -/
def State.cmdTry (s : State) (die : Nat) (c : Cmd) : Bool × State :=
  if c.bad then (true, s.refuse die c 0)
  else match c.op with
  | 1 => s.cmdNew die c
  | 2 => s.cmdResume die c
  | 3 => s.cmdPre die c false
  | 4 => s.cmdPre die c true
  | 5 => s.cmdRemap die c
  | _ => s.cmdWalk die c

/-- Performs the commands of a die in ring order, up to the first that has to wait. -/
def State.cmdTurn (s : State) (die : Nat) : Nat → State
  | 0 => s
  | n + 1 => match (s.die die).cmds with
    | [] => s
    | c :: _ =>
      let r := s.cmdTry die c
      if r.1 then (r.2.updDie die fun d => { d with cmds := d.cmds.drop 1 }).cmdTurn die n else r.2

/-- What the dispatch engine of a die does with the commands and completion adds that it has. -/
def State.cmdAll (s : State) (die : Nat) : State :=
  ((s.cmdTurn die (s.die die).cmds.length).gangAll die).addTurn die

/-- The work distributor sends a command through a die's mailbox ring. -/
def State.command (s : State) (die : Nat) (c : Cmd) : State := (s.updDie die fun d => { d with cmds := d.cmds ++ [c] }).cmdAll die

/-! ## The meanings -/

/-- Task end. -/
def execTaskEnd (core ctx : Nat) (s : State) : Host.Outcome State Fault Refusal := .next (s.taskEnd ⟨core, ctx⟩)
/-- Task ended by the firmware. -/
def execTaskEndedByFirmware (trid : Nat) (s : State) : Host.Outcome State Fault Refusal := .next (s.taskKilled trid)
/-- Task sequencer dispatch. -/
def execTaskSequencerDispatch (clu : Nat) (s : State) : Host.Outcome State Fault Refusal := .next (s.seqDispatch clu)
/-- Dispatch NEW. -/
def execDispatchNew (die : Nat) (w0 rec' logidx : W64) (save : SaveTo) (donep : W64) (s : State) :
    Host.Outcome State Fault Refusal := .next (s.command die (cmdOf w0 rec' logidx save donep 0))
/-- Dispatch RESUME. -/
def execDispatchResume (die : Nat) (w0 : W64) (save : SaveTo) (donep : W64) (s : State) : Host.Outcome State Fault Refusal :=
  .next (s.command die (cmdOf w0 0 0 save donep 0))
/-- Dispatch SOFTPRE. -/
def execDispatchSoftpre (die : Nat) (w0 : W64) (save : SaveTo) (donep : W64) (s : State) : Host.Outcome State Fault Refusal :=
  .next (s.command die (cmdOf w0 0 0 save donep 0))
/-- Soft pre-emption boundary. -/
def execSoftpreBoundary (core ctx : Nat) (s : State) : Host.Outcome State Fault Refusal := .next (s.softBoundary ⟨core, ctx⟩)
/-- Soft pre-emption timeout. -/
def execSoftpreTimeout (core ctx : Nat) (s : State) : Host.Outcome State Fault Refusal := .next (s.softTimeout ⟨core, ctx⟩)
/-- Dispatch HARDPRE. -/
def execDispatchHardpre (die : Nat) (w0 save donep : W64) (keep : Bool) (s : State) : Host.Outcome State Fault Refusal :=
  .next (s.command die (cmdOf w0 0 0 ⟨save, keep, none⟩ donep 0))
/-- Dispatch REMAP. -/
def execDispatchRemap (die : Nat) (w0 donep w5 : W64) (s : State) : Host.Outcome State Fault Refusal :=
  .next (s.command die (cmdOf w0 0 0 ⟨0, false, none⟩ donep w5))
/-- Dispatch WALK. -/
def execDispatchWalk (die : Nat) (w0 save donep : W64) (s : State) : Host.Outcome State Fault Refusal :=
  .next (s.command die (cmdOf w0 0 0 ⟨save, false, none⟩ donep 0))
/-- Block entry write (R200). -/
def execBlockEntryWrite (die b : Nat) (words : List W64) (s : State) : Host.Outcome State Fault Refusal :=
  .next (s.writeBlock die b words)

end Sys2Proof.Machine
end

