-- ==== Sys2Proof/Machine/Queues.lean ====
section
/-! DEFINITION. Host queues: doorbells, packets, launches and their signals, registration, and the trace's tail (R352 to R356,
R371, R395). -/

namespace Sys2Proof.Machine

open Sys2Proof

/-! ## Indices (Table 15-5) -/

/-- Packets that the ring holds. -/
def State.qSize (s : State) (q : Nat) : Nat := 2 ^ fld (s.qcbW q 1) 63 58
/-- RDIDX. -/
def State.qRd (s : State) (q : Nat) : Nat := (s.qcbW q 2).toNat
/-- DONEIDX. -/
def State.qDone (s : State) (q : Nat) : Nat := (s.qcbW q 3).toNat
/-- WRIDX. -/
def State.qWr (s : State) (q : Nat) : Nat := (s.qcbW q 4).toNat
/-- ASID of a queue. -/
def State.qAsid (s : State) (q : Nat) : Nat := fld (s.qcbW q 1) 57 48

/-- Key of queue q of interface vi. -/
def queueKey (vi q : Nat) : Nat := vi * 512 + q

/-! ## Doorbells (R353, R385, R395, R411) -/

/-- DOORBELL_WRITE: dropped before boot step 6, for an interface that is not enabled, at or above QMAX, or with no registered
QCB. -/
def State.doorbell (s : State) (vi q : Nat) (w : W64) : State :=
  let k := queueKey vi q
  match tget? s.queues k with
  | none => s
  | some _ =>
    if s.board.boot < 6 || !bit (s.vi vi 0) 63 || fld (s.vi vi 0) 41 32 ≤ q then s
    else if w.toNat < s.qWr k || s.qSize k < w.toNat - s.qDone k then s.qHalt k 4
    else s.setQcb k 4 w

/-! ## Packets (R354, R355) -/

/-- The next packet of a queue that may start: the queue is active and its interface enabled, its ring reachable, no WAIT is
pending, and a BARRIER finds every earlier packet complete. -/
def State.nextPkt (s : State) (q : Nat) : Option (List W64) :=
  match tget? s.queues q with
  | none => none
  | some x =>
    let base := (s.qcbW q 0).toNat
    let ws := s.physWords (base + 64 * (s.qRd q % s.qSize q)) 8
    let waits := x.pkts.any fun k => fld (wd k.words 0) 63 56 == 2 && !k.done
    if s.qState q != 1 || !bit (s.vi x.vi 0) 63 || s.qRd q == s.qWr q || s.board.boot < 6 ||
        (isHostHomed base && s.link.fenced) || waits then none
    else if bit (wd ws 0) 55 && x.pkts.any (fun k => !k.done) then none
    else some ws

/-- TYPE of a packet. -/
def pkType (ws : List W64) : Nat := fld (wd ws 0) 63 56

/-- Whether a packet is one of Table 15-6 with its reserved fields 0. -/
def pkGood (ws : List W64) : Bool :=
  let z := fun i => wd ws i == 0
  fld (wd ws 0) 54 0 == 0 && z 6 && z 7 &&
  match pkType ws with
  | 1 => fld (wd ws 2) 31 0 == 0 && fld (wd ws 3) 63 8 == 0
  | 2 => fld (wd ws 3) 63 1 == 0 && z 4 && z 5
  | 3 => z 3 && z 4 && z 5
  | 4 => z 3 && z 4 && z 5
  | _ => false

/-- Starts a packet: RDIDX advances and the packet is kept, a LAUNCH with the records that it took (R347), until DONEIDX passes it. -/
def State.startPkt (s : State) (q : Nat) (ws : List W64) (todo : List Nat) (recs : List RecData) (done : Bool) : State :=
  match tget? s.queues q with
  | none => s
  | some x =>
    let k : QPkt :=
      { index := s.qRd q, recs := recs, words := ws, left := todo.length, todo := todo, fault := false, stuck := false, done := done,
        die := x.die }
    let s := s.setQcb q 2 (BitVec.ofNat 64 (s.qRd q + 1))
    { s with queues := tset s.queues q { x with pkts := x.pkts ++ [k], held := none, launched := x.launched || !todo.isEmpty } }

/-- Advances DONEIDX over the leading run of completed packets (R355). -/
def State.retirePkts (s : State) (q : Nat) : State :=
  match tget? s.queues q with
  | none => s
  | some x =>
    let n := (x.pkts.takeWhile (·.done)).length
    if n = 0 then s
    else
      let s := { s with queues := tset s.queues q { x with pkts := x.pkts.drop n } }
      s.setQcb q 3 (BitVec.ofNat 64 (s.qDone q + n))

/-- Completes a packet. -/
def State.finishPkt (s : State) (q i : Nat) : State := (s.updPkt q i fun k => { k with done := true }).retirePkts q

/-- What a failed access of the dispatch engine of a die does to a queue: a page request that holds the packet, or SIGFAULT (R354). -/
def State.qFail (s : State) (q die : Nat) (f : Fail) (va : W64) : State :=
  match tget? s.queues q with
  | none => s
  | some x =>
    if f.pauses x.held then
      if x.held.isSome then s
      else ({ s with queues := tset s.queues q { x with held := some { asid := s.qAsid q, va := va, declined := false } }
            }).pageRequest die (s.qAsid q) va 0
    else (({ s with queues := tset s.queues q { x with held := none } } : State)).qHalt q 7

/-- Die of a queue. -/
def State.qDie (s : State) (q : Nat) : Nat := ((tget? s.queues q).map (·.die)).getD 0

/-- Whether a queue waits for a page. -/
def State.qHeld (s : State) (q : Nat) : Bool := match tget? s.queues q with
  | some x => !((x.held.map (·.declined)).getD true)
  | none => true

/-! ## LAUNCH (R347, R348, R350, R351, R356) -/

/-- Addresses of the records of a launch: the named one's, and of a gang those of its further members. -/
def launchAddrs (va : W64) (r : List W64) : List W64 :=
  va :: (if bit (wd r 0) 56 then (List.range (fld (wd r 10) 39 32 - 1)).map fun i => va + BitVec.ofNat 64 (256 * (i + 1)) else [])

/-- What the reading of a launch's records waits for (R387). -/
def State.launchBias (s : State) (q : Nat) (va : W64) : Option (State → State) :=
  let rd := launchReader (s.qDie q) (s.qAsid q)
  match readWords rd va 32 s with
  | .error _ => none
  | .ok (r, _) => (launchAddrs va r).findSome? fun a => s.recBias rd (s.qDie q) (s.qAsid q) a

/-- The records of a launch with their lists: the access that fails, none where a list is too long or misaligned. -/
def State.launchRecs (s : State) (q : Nat) (va : W64) : Except (Option (Fail × W64)) (List RecData × State) :=
  let rd := launchReader (s.qDie q) (s.qAsid q)
  match readRec rd va s with
  | .error f => .error f
  | .ok (r, s) => ((launchAddrs va r.words).drop 1).foldl (fun acc a => match acc with
    | .error f => .error f
    | .ok (l, s) => match readRec rd a s with
      | .error f => .error f
      | .ok (x, s) => .ok (l ++ [x], s)) (.ok ([r], s))

/-- Whether a LAUNCH packet itself is refused: its record's alignment, its count and its mask (R347, R350, R356). -/
def State.launchBad (s : State) (q : Nat) (ws : List W64) : Bool :=
  let n := fld (wd ws 2) 63 32
  (wd ws 1).toNat % 256 != 0 || n == 0 || 2 ^ 20 < n || (maskClus (s.qDie q) (fld (wd ws 3) 7 0)).isEmpty

/-- The tasks of a launch of records, by id; none where it is refused (R348, R350, R351). -/
def State.launchTasks (s : State) (q : Nat) (ws : List W64) (all : List RecData) : Option (List Nat) :=
  let n := fld (wd ws 2) 63 32
  match all with
  | [] => none
  | r :: _ =>
    if all.any (s.recRefused (s.qDie q) (s.qAsid q)) then none
    else if r.gang then
      if n != 1 || fld (r.w 10) 39 32 != all.length || pipesClash all || all.any (fun x => x.rankBad 0) ||
          all.zipIdx.any (fun x => !x.1.gang || fld (x.1.w 10) 31 24 != x.2 || x.1.gangid != r.gangid) then none
      else some (all.map RecData.trid)
    else if r.rankBad (n - 1) then none
    else some ((List.range n).map fun j => (r.trid + j) % 2 ^ 24)

/-- Takes the records of a LAUNCH: it starts, waits for a page, or halts its queue with LAUNCHFAULT. -/
def State.launchTake (s : State) (q : Nat) (ws : List W64) : State :=
  match s.launchRecs q (wd ws 1) with
  | .error none => s.qHalt q 1
  | .error (some (f, va)) => if f.pauses (((tget? s.queues q).bind (·.held))) then s.qFail q (s.qDie q) f va else s.qHalt q 1
  | .ok (rs, s') => match s.launchTasks q ws rs with
    | none => s.qHalt q 1
    | some l => s'.startPkt q ws l rs false

/-- LAUNCH_PACKET: also halts the queue at a packet that is none of Table 15-6. -/
def State.launchPkt (s : State) (q : Nat) : State :=
  match s.nextPkt q with
  | none => s
  | some ws =>
    if !pkGood ws then s.qHalt q 3
    else if pkType ws != 1 then s
    else if s.launchBad q ws then s.qHalt q 1
    else match s.launchBias q (wd ws 1) with
    | some f => f s
    | none => s.launchTake q ws

/-- An access of a packet that has started fails: a page request holds it, or the queue halts with SIGFAULT, and the packet does not
complete (R354). -/
def State.pktFail (s : State) (q : Nat) (k : QPkt) (f : Fail) (va : W64) : State :=
  let s' := s.qFail q k.die f va
  if f.pauses ((tget? s.queues q).bind (·.held)) then s' else s'.updPkt q k.index fun k => { k with stuck := true }

/-- The first LAUNCH of a queue whose tasks have all ended and whose signal has not failed. -/
def State.launchOver (s : State) (q : Nat) : Option QPkt :=
  match tget? s.queues q with
  | some x => x.pkts.find? fun k => pkType k.words == 1 && k.left == 0 && k.todo.isEmpty && !k.done && !k.stuck
  | none => none

/-- Performs one of the accesses of a die's dispatch engine once the bias of its page is settled (R354, R387). -/
def State.qAccess (s : State) (q die : Nat) (va : W64) (f : State) : State :=
  match s.unitBias .dispatch die (s.qAsid q) true [(va, 8)] with
  | some g => g s
  | none => f

/-- LAUNCH_COMPLETE (R354): the signal, an atadd.rel.sys, and the packet is complete. -/
def State.launchDone (s : State) (q : Nat) : State :=
  match s.launchOver q with
  | none => s
  | some k =>
    let va := wd k.words 4
    if va = 0 then s.finishPkt q k.index
    else s.qAccess q k.die va (match s.unitAdd .dispatch k.die (s.qAsid q) va (wd k.words 5) with
      | .ok s => s.finishPkt q k.index
      | .error f => s.pktFail q k f va)

/-! ## WAIT, SIGNAL and MARK (R354) -/

/-- WAIT_PACKET: the packet starts, and holds the later ones. -/
def State.waitPkt (s : State) (q : Nat) : State :=
  match s.nextPkt q with
  | some ws => if pkGood ws && pkType ws == 2 then s.startPkt q ws [] [] false else s
  | none => s

/-- The WAIT of a queue that has started and is not complete. -/
def State.waitOf (s : State) (q : Nat) : Option QPkt :=
  match tget? s.queues q with
  | some x => x.pkts.find? fun k => pkType k.words == 2 && !k.done && !k.stuck
  | none => none

/-- What a WAIT's acquire load finds: its failure, or whether its condition holds. -/
def State.waitFinds (s : State) (q : Nat) (k : QPkt) : Except Fail (Bool × State) :=
  match s.unitRead .dispatch k.die (s.qAsid q) (BitVec.allOnes 64) (wd k.words 1) 8 with
  | .error f => .error f
  | .ok (bs, s) => .ok (if bit (wd k.words 3) 0 then w64 bs == wd k.words 2 else wd k.words 2 ≤ w64 bs, s)

/-- WAIT_SATISFIED: completes the packet once its condition holds. -/
def State.waitDone (s : State) (q : Nat) : State :=
  match s.waitOf q with
  | none => s
  | some k => s.qAccess q k.die (wd k.words 1) (match s.waitFinds q k with
    | .error f => s.pktFail q k f (wd k.words 1)
    | .ok (true, s) => s.finishPkt q k.index
    | .ok (false, _) => s)

/-- A SIGNAL or MARK whose access fails: a page request holds it, and any other fault halts the queue at the started packet
(R354). -/
def State.failStart (s s' : State) (q : Nat) (ws : List W64) (f : Fail) (va : W64) : State :=
  if f.pauses ((tget? s.queues q).bind (·.held)) then s.qFail q (s.qDie q) f va else (s'.startPkt q ws [] [] false).qHalt q 7

/-- SIGNAL_PACKET: its atadd.rel.sys is performed as it starts. -/
def State.signalPkt (s : State) (q : Nat) : State :=
  match s.nextPkt q with
  | none => s
  | some ws =>
    if !(pkGood ws && pkType ws == 3) then s
    else s.qAccess q (s.qDie q) (wd ws 1) (match s.unitAdd .dispatch (s.qDie q) (s.qAsid q) (wd ws 1) (wd ws 2) with
      | .ok s => (s.startPkt q ws [] [] true).retirePkts q
      | .error f => s.failStart s q ws f (wd ws 1))

/-- Writes a MARK's sequence word, where it asks for one: the SEQ of its record, which a GAP record may precede (R369, R371). -/
def State.markWord (s : State) (q : Nat) (va : W64) : Except Fail State :=
  let die := s.qDie q
  let t := (s.die die).trace
  let seq := mkW [((t.head + if t.gap = 0 then 0 else 1) % 2 ^ 48, 0), (die, 48)]
  if va = 0 then .ok s else s.unitWrite .dispatch die (s.qAsid q) va (toBytes 8 seq.toNat)

/-- Writes the record of a MARK, then its sequence word as a release store of scope sys, as one step. -/
def State.markRun (s : State) (q : Nat) (ws : List W64) : State :=
  let log := fun (s : State) => s.decide (s.qDie q) 9 (s.qAsid q) 0 0 0 (wd ws 1) []
  match s.markWord q (wd ws 2) with
  | .error f => s.failStart (log s) q ws f (wd ws 2)
  | .ok s => ((log s).startPkt q ws [] [] true).retirePkts q

/-- MARK_PACKET: under replay the recorded MARK, or the queues halt. -/
def State.markPkt (s : State) (q : Nat) : State :=
  match s.nextPkt q with
  | none => s
  | some ws =>
    let die := s.qDie q
    if !(pkGood ws && pkType ws == 4) then s
    else if !s.mayDecide die 1 then s.logFull die
    else if !s.mayTake die (s.qAsid q) 9 0 0 0 then s
    else if s.replays die (s.qAsid q) && wd (s.recorded die (s.qAsid q)) 2 != wd ws 1 then s.replayDiv die
    else if wd ws 2 = 0 then s.markRun q ws
    else s.qAccess q (s.qDie q) (wd ws 2) (s.markRun q ws)

/-! ## Registration and the trace's tail (R356, R371, R395) -/

/-- QUEUE_REGISTER: the work distributor registers the QCB of an interface's queue and binds it to a die, as a QBIND decision;
a QCB whose interface or ASID is not the interface's is not registered. A queue that stands already is bound anew. -/
def State.registerQueue (s : State) (vi q die : Nat) (qcb : W64) : State :=
  let w1 := s.homeW (qcb.toNat + 8)
  let v := s.vi vi 0
  let asid := fld w1 57 48
  if s.board.boot < 6 || fld w1 47 42 != vi || asid < fld v 62 53 || fld v 62 53 + fld v 52 42 ≤ asid || fld v 41 32 ≤ q ||
      4 ≤ die then s
  else if !s.mayDecide die 1 then s.logFull die
  else if s.replays die asid && (!s.mayTake die asid 8 0 0 0 || wd (s.recorded die asid) 2 != qcb) then s
  else
    let k := queueKey vi q
    let old := tget? s.queues k
    let x : Queue := { qcb := qcb.toNat, vi := vi, q := q, die := die, pkts := (old.map (·.pkts)).getD [], held := none,
                       launched := (old.map (·.launched)).getD false }
    let s := { s with queues := tset s.queues k x }
    s.decide die 8 asid 0 0 0 qcb []

/-- TRACE_TAIL_WRITE: the host writes TRTAIL; queues that LOGFULL paused resume once there is room (R355, R371). -/
def State.writeTail (s : State) (die : Nat) (v : W64) : State :=
  let s := s.updDie die fun d => { d with trace := { d.trace with tail := v.toNat } }
  if !s.mayDecide die 1 then s
  else s.queues.foldl (fun s p => if p.2.die == die && s.qState p.1 == 3 then s.qSet p.1 1 0 else s) s

/-! ## The meanings -/

/-- Doorbell write. -/
def execDoorbellWrite (vi q : Nat) (w : W64) (s : State) : Host.Outcome State Fault Refusal := .next (s.doorbell vi q w)
/-- LAUNCH packet. -/
def execLaunchPacket (q : Nat) (s : State) : Host.Outcome State Fault Refusal := .next (s.launchPkt q)
/-- WAIT packet. -/
def execWaitPacket (q : Nat) (s : State) : Host.Outcome State Fault Refusal := .next (s.waitPkt q)
/-- WAIT satisfied. -/
def execWaitSatisfied (q : Nat) (s : State) : Host.Outcome State Fault Refusal := .next (s.waitDone q)
/-- SIGNAL packet. -/
def execSignalPacket (q : Nat) (s : State) : Host.Outcome State Fault Refusal := .next (s.signalPkt q)
/-- MARK packet. -/
def execMarkPacket (q : Nat) (s : State) : Host.Outcome State Fault Refusal := .next (s.markPkt q)
/-- LAUNCH complete. -/
def execLaunchComplete (q : Nat) (s : State) : Host.Outcome State Fault Refusal := .next (s.launchDone q)
/-- Queue registration. -/
def execQueueRegister (vi q die : Nat) (qcb : W64) (s : State) : Host.Outcome State Fault Refusal :=
  .next (s.registerQueue vi q die qcb)
/-- Trace tail write. -/
def execTraceTailWrite (die : Nat) (v : W64) (s : State) : Host.Outcome State Fault Refusal := .next (s.onBoot (s.writeTail die v))

end Sys2Proof.Machine
end

