-- ==== Sys2Proof/Machine/TcEvents.lean ====
section
/-! DEFINITION. The events of a transport core, their default actions, and what the transport does with paths, resends, posts
and answers (R117, R159 to R164, R174 to R178). -/

namespace Sys2Proof.Machine

/-! ## What the transport core may ask of the transport (R174 to R178) -/

/-- Whether RESEND sends a packet again: one of n from a sequence number that has been sent and is not acknowledged (R174). -/
def OutPkt.again (k : OutPkt) (first n : Nat) : Bool := k.wire && !k.acked && first ≤ k.psn && k.psn < first + n

/-- Queues packets of a flow to be sent again, each when its peer's GAP lets it start (R176), and counts none as missing or in
backoff. -/
def Flow.requeue (f : Flow) (p : OutPkt → Bool) : Flow :=
  { f with pkts := mapIf p (fun k => { k with sent := false, backoff := false, missing := false }) f.pkts }

/-- RESEND: queues again the packets that it sends, and counts them; none while their peer has no path (R174). -/
def State.resend (s : State) (die fid first n : Nat) : Nat × State :=
  let t := (s.die die).tx
  let f := t.flow fid
  if t.noPath f.peer then (0, s)
  else ((f.pkts.filter (·.again first n)).length, s.updTx die fun t => t.updFlow fid fun f => f.requeue (·.again first n))

/-- Moves the ROD flows of a peer that use a slot to the lowest-numbered slot of nonzero weight (R175). -/
def Transport.moveRod (t : Transport) (peer slot : Nat) : Transport :=
  match t.lowPath peer with
  | none => t
  | some i => { t with flows := t.flows.map fun f =>
      if f.2.rod && f.2.peer == peer && f.2.slot == slot then (f.1, { f.2 with slot := i }) else f }

/-- Sets the weight of a path slot (R175): a change lets its failure be raised again (R160). -/
def Transport.setWeight (t : Transport) (peer slot w : Nat) : Transport :=
  if (t.slot peer slot).weight = w then t
  else
    (t.updSlot peer slot fun x => { x with weight := w, raised := false, lost := 0, probing := x.probing && w == 0 }).moveRod
      peer slot

/-- SETPATH (R175). -/
def State.setPath (s : State) (die peer : Nat) (v : W64) : State :=
  let i := fld v 5 0
  s.updTx die fun t =>
    let t := if bit v 15 then t.updSlot peer i fun x => { x with port := fld v 47 43, entropy := fld v 63 48 } else t
    t.setWeight peer i (fld v 9 6)

/-- PATHDOWN (R175): weight 0, its unacknowledged packets queued again, probes started. -/
def State.pathDown (s : State) (die peer slot : Nat) : State :=
  s.updTx die fun t =>
    let t := (t.setWeight peer slot 0).updSlot peer slot fun x => { x with probing := true }
    { t with flows := t.flows.map fun f =>
        if f.2.peer = peer then
          (f.1, f.2.requeue fun k => k.sent && !k.acked && k.slot == slot)
        else f }

/-- SETWIN (R176). -/
def State.setWin (s : State) (die peer : Nat) (v : W64) : State :=
  s.updTx die fun t =>
    let q := t.peer peer
    let rto := if fld v 63 48 = 0 then q.rto else fld v 63 48
    let q' : Peer := { q with win := min (max (fld v 31 0) 4096) (2 ^ 24), gap := fld v 47 32, rto := rto }
    { t with peers := tset t.peers peer q' }

/-- POST (R178): whether it took effect. -/
def State.postOp (s : State) (die opid status : Nat) : Bool × State :=
  match (s.die die).tx.ops.find? fun o => o.opid == opid with
  | some o =>
    if status = 0 && !(o.started && o.total != 0 && o.acked == o.total && (!o.ready || o.status == 0)) then (false, s)
    else
      let back := fun (x : TxOp) => { x with ready := false }
      (true, (s.updOp die opid back).endOp die opid status 0 o.addr)
  | none => match (s.die die).tx.flows.find? fun f => f.2.accs.any fun a => a.opid == opid with
    | none => (false, s)
    | some f =>
      if status = 0 then (false, s)
      else
        let s' := s.updTx die fun t => t.updFlow f.1 fun x =>
          { x with accs := x.accs.filter (·.opid != opid), pkts := x.pkts.filter (·.opid != opid) }
        (true, (f.2.accs.filter (·.opid == opid)).foldl State.unreach s')

/-! ## Answers to arriving packets -/

/-- The flow of a source, as a key: what the words of a packet hold is no part of it (R128, R163, R171). -/
def pktKey (p : Packet) : Nat := 2 * (p.src * 2 ^ 64 + p.flow) + p.resp.toNat

/-- Notes that a packet has been delivered, so that a copy is dropped (R128). -/
def State.markSeen (s : State) (die : Nat) (p : Packet) : State :=
  s.updTx die fun t => { t with seen := (pktKey p, p.psn) :: t.seen }

/-- Accepts a packet: it is delivered and acknowledged (R135). -/
def State.accept (s : State) (die : Nat) (p : Packet) : State :=
  (s.markSeen die p).answerTo die p.src p.flow p.psn 0

/-! ## Events (R160 to R164) -/

/-- W0 of an event record (Table 07-3), without EVSEQ. -/
def evW0 (kind : Nat) (held : Bool) (port path peer : Nat) : W64 :=
  mkW [(kind, 59), (held.toNat, 58), (port, 53), (path, 47), (peer, 32)]

/-- W1 of an event record. -/
def evW1 (flow asid opid : Nat) : W64 := mkW [(flow, 40), (asid, 30), (opid, 0)]

/-- The default action of an event (Table 07-5). -/
def State.settleEvent (s : State) (die : Nat) (e : TcEvent) : State :=
  let peer := e.peer
  match fld e.w0 63 59 with
  | 0 => (s.resend die e.flow (fld e.w2 63 32) (min 256 (fld e.w2 31 0))).2
  | 1 => s.updTx die fun t =>
      let q := t.peer peer
      { t with peers := tset t.peers peer { q with win := max (q.win / 2) 4096 } }
  | 3 =>
    let s := (s.resend die e.flow (fld e.w2 63 32) 1).2
    if 64 ≤ fld e.w3 31 0 then
      let s := (s.postOp die (fld e.w1 23 0) 7).2
      s.unreachFlow die e.flow true
    else s
  | 4 => if fld e.w2 7 0 = 1 then s.pathDown die peer (fld e.w0 52 47) else s
  | 7 => match e.held with
    | some p => s.accept die p
    | none => s
  | 8 => match e.hdr with
    | some h => s.answerHdr die h 1
    | none => s
  | _ => s

/-- Counts an event settled by a default action (R157). -/
def Tc.countDefault (t : Tc) : Tc := { t with defaults := satAdd 32 t.defaults 1 }

/-- Whether a queued record is a congestion mark of a peer. -/
def isMark (peer : Nat) (e : TcEvent) : Bool := fld e.w0 63 59 == 1 && e.peer == peer

/-- Adds the byte counts of a mark to the first queued one of its peer (R160). -/
def mergeMark (w2 : W64) (peer : Nat) : List TcEvent → List TcEvent
  | [] => []
  | e :: l =>
    if isMark peer e then
      { e with w2 := mkW [(satAdd 32 (fld e.w2 63 32) (fld w2 63 32), 32), (satAdd 32 (fld e.w2 31 0) (fld w2 31 0), 0)] } :: l
    else e :: mergeMark w2 peer l

/-- Raises an event (R159, R160): queued, merged, or settled at once by its default action. -/
def State.raise (s : State) (die : Nat) (e : TcEvent) : State :=
  let t := (s.die die).tc
  let peer := e.peer
  if t.state = 1 && fld e.w0 63 59 = 1 && t.queue.any (isMark peer) then
    s.updTc die fun t => { t with queue := mergeMark e.w2 peer t.queue }
  else
    let e := { e with w0 := e.w0 ||| BitVec.ofNat 64 (t.evseq % 2 ^ 32) }
    let s := s.updTc die fun t => { t with evseq := (t.evseq + 1) % 2 ^ 32 }
    if t.state != 1 then (s.updTc die Tc.countDefault).settleEvent die e
    else if 1024 ≤ t.queue.length then (s.updTc die fun t => { t with evlost := satAdd 32 t.evlost 1 }).settleEvent die e
    else s.updTc die fun t => { t with queue := t.queue ++ [e] }

/-- Applies the default action to the current event if it has not been answered (R164). -/
def State.settleCur (s : State) (die : Nat) : State :=
  let t := (s.die die).tc
  match t.cur with
  | none => s
  | some e =>
    if t.answered then s
    else
      let s := s.updTc die fun t =>
        { t.countDefault with answered := true, cur := some { e with held := none, hdr := none } }
      s.settleEvent die e

/-- What a stop of the core leaves: the current event and then the queued ones take their defaults, so that no traffic waits for a stopped
core (R159; that the queue is settled too is read from its last sentence, log 63). -/
def State.settleAll (s : State) (die : Nat) : State :=
  let s := s.settleCur die
  let q := (s.die die).tc.queue
  q.foldl (fun (s : State) e => (s.updTc die Tc.countDefault).settleEvent die e) (s.updTc die fun t => { t with queue := [] })

/-- An event of the sending side: kind, flow, the packet that it names, and two words. -/
def State.raiseOut (s : State) (die kind fid : Nat) (k : OutPkt) (w2 w3 : W64) : State :=
  let t := (s.die die).tx
  let f := t.flow fid
  s.raise die { flow := fid, peer := f.peer, w0 := evW0 kind false (t.slot f.peer k.slot).port k.slot (min f.peer 0x1FFF),
                w1 := evW1 (Config.flowId fid).toNat f.asid k.opid, w2 := w2, w3 := w3, held := none, hdr := none }

/-- Counts a packet lost on its path; three in a row raise a path failure, once (R160, R162). -/
def State.lostPkt (s : State) (die fid : Nat) (k : OutPkt) : State :=
  let peer := ((s.die die).tx.flow fid).peer
  let s := s.updTx die fun t => t.updSlot peer k.slot fun x => { x with lost := x.lost + 1 }
  let x := (s.die die).tx.slot peer k.slot
  if 3 ≤ x.lost && !x.raised then
    let s := s.updTx die fun t => t.updSlot peer k.slot fun x => { x with raised := true }
    s.raise die { flow := 0, peer := peer, w0 := evW0 4 false x.port k.slot (min peer 0x1FFF), w1 := 0, w2 := 1, w3 := 0, held := none, hdr := none }
  else s

/-! ## Acknowledgements and timeouts (R135, R160, R162, R466) -/

/-- Whether a packet is on its way and not acknowledged: one that waits for its backoff has come and been answered (R466). -/
def OutPkt.out (k : OutPkt) : Bool := k.sent && !k.acked && !k.backoff

/-- The run of packets from a sequence number that are on their way and not acknowledged. -/
def missingRun (ks : List OutPkt) (first : Nat) : Nat → Nat
  | 0 => 0
  | n + 1 => if ks.any fun k => k.psn == first && k.out then 1 + missingRun ks (first + 1) n else 0

/-- The gap that an acknowledgement of a sequence number shows: its first packet, and the run's length (R162). -/
def Flow.gap (f : Flow) (psn : Nat) : Option (OutPkt × Nat) :=
  let ks := f.pkts.filter fun k => k.psn < psn
  (ks.find? (·.out)).map fun k => (k, missingRun ks k.psn (psn - k.psn))

/-- Which of the 64 packets from a sequence number are received. -/
def Flow.received (f : Flow) (first : Nat) : W64 :=
  mkW ((List.range 64).map fun i => (if f.pkts.any (fun k => k.psn == first + i && k.acked) then 1 else 0, i))

/-- Acknowledges one packet: also one that PATHDOWN has queued again (R175). A multicast copy is acknowledged by its last peer
(R139). -/
def State.ackOne (s : State) (die fid : Nat) (a : PktAck) : State :=
  let f := (s.die die).tx.flow fid
  match f.pkts.find? fun k => k.psn == a.psn && k.wire && !k.acked with
  | none => s
  | some k =>
    let last := k.left ≤ 1
    let s := s.updTx die fun t =>
      (t.updSlot f.peer k.slot fun x => { x with lost := 0 }).updFlow fid fun f =>
        f.updPkt a.psn fun k => { k with left := k.left - 1, acked := last, sent := k.sent || last, backoff := k.backoff && !last }
    s.opAcked die k.opid (min a.bytes k.payload.length) false

/-- What an acknowledgement finds of its packets that were open: their payload bytes, those marked, and a marked one. -/
def ackSums (f : Flow) (acks : List PktAck) : Nat × Nat × Option OutPkt :=
  acks.foldl (fun r a => match f.pkts.find? fun k => k.psn == a.psn && k.wire && !k.acked with
    | none => r
    | some k => (r.1 + k.payload.length, r.2.1 + (if a.mark then k.payload.length else 0),
        if a.mark && r.2.2.isNone then some k else r.2.2)) (0, 0, none)

/-- Raises SACKGAP for the packets that an acknowledgement of a sequence number shows to be missing, and counts those of them that were
not known to be lost on their paths (R160, R162; log 29). -/
def State.showGap (s : State) (die fid psn : Nat) : State :=
  let f := (s.die die).tx.flow fid
  match f.gap psn with
  | none => s
  | some (g, n) =>
    let run := f.pkts.filter fun (x : OutPkt) => g.psn ≤ x.psn && x.psn < g.psn + n && x.out && !x.missing
    let s := s.updTx die fun t => t.updFlow fid fun f => run.foldl (fun (f : Flow) (x : OutPkt) =>
      f.updPkt x.psn fun k => { k with missing := true }) f
    let s := s.raiseOut die 0 fid g (mkW [(g.psn % 2 ^ 32, 32), (n, 0)]) (f.received g.psn)
    run.foldl (fun (s : State) (x : OutPkt) => s.lostPkt die fid x) s

/-- PACKET_ACK: an acknowledgement of one or more packets of a flow (R135, R162). -/
def State.packetAck (s : State) (die fid : Nat) (acks : List PktAck) (rtt : Nat) : State :=
  let sums := ackSums ((s.die die).tx.flow fid) acks
  let s := acks.foldl (fun (s : State) a => s.ackOne die fid a) s
  let s := match sums.2.2 with
    | some k => s.raiseOut die 1 fid k (mkW [(min sums.2.1 (2 ^ 32 - 1), 32), (min sums.1 (2 ^ 32 - 1), 0)])
        (BitVec.ofNat 64 (rtt % 2 ^ 32))
    | none => s
  (s.showGap die fid (acks.foldl (fun m a => max m a.psn) 0)).updTx die fun t => t.updFlow fid Flow.trim

/-- A packet that a selective negative acknowledgement names is lost: its gap is raised (R115, R162; log 59). -/
def State.trimmed (s : State) (die fid : Nat) (k : OutPkt) : State :=
  if k.missing then s
  else
    let f := (s.die die).tx.flow fid
    let s := s.updTx die fun t => t.updFlow fid fun f => f.updPkt k.psn fun k => { k with missing := true }
    (s.raiseOut die 0 fid k (mkW [(k.psn % 2 ^ 32, 32), (1, 0)]) (f.received k.psn)).lostPkt die fid k

/-- PACKET_NACK (R115, R120, R136, R466): "no target" refuses the operation; a global access so answered ends with UNREACH, since R151
gives it no other end than its GRESP: the model's choice (log 63). "Retry" starts the packet's backoff and its timeout afresh; a target
that declares no persistent region answers FLUSHP with "not durable". -/
def State.packetNack (s : State) (die fid psn : Nat) (code : NackCode) : State :=
  let f := (s.die die).tx.flow fid
  match f.pkts.find? fun k => k.psn == psn && k.wire && !k.acked with
  | none => s
  | some k =>
    let heard := fun (s : State) => s.updTx die fun t => t.updSlot f.peer k.slot fun x => { x with lost := 0 }
    let gone := fun (s : State) => s.updTx die fun t => t.updFlow fid fun f => { f with pkts := f.pkts.filter (·.psn != psn) }
    match code with
    | .trimmed => s.trimmed die fid k
    | .noTarget => if k.opid = 0 then gone (heard s) else ((gone (heard s)).postOp die k.opid 6).2
    | .notDurable =>
      let late := fun (o : TxOp) => { o with status := if o.status = 0 then 8 else o.status }
      ((gone (heard s)).updOp die k.opid late).opAcked die k.opid 0 false
    | .retry => (heard s).updTx die fun t => t.updFlow fid fun f =>
        { f.updPkt psn (fun k => { k with backoff := true, sent := true, since := s.cycle }) with
          rtoPsn := f.rtoPsn.filter (· != psn) }

/-- RETRY_BACKOFF_EXPIRY: one RTO interval of the peer after the answer, the packet is to be sent again (R466). -/
def State.retryExpiry (s : State) (die fid psn : Nat) : State :=
  let t := (s.die die).tx
  let f := t.flow fid
  if f.pkts.any fun k => k.psn == psn && k.backoff && !k.acked && k.since + t.rtoOf f.peer ≤ s.cycle then
    s.updTx die fun t => t.updFlow fid fun f => f.requeue (·.psn == psn)
  else s

/-- RTO_EXPIRY (R160, R162, R176): the oldest packet outlives the interval, counted from its last start and once in each interval; one
that waits for its backoff does not (R466). W3 counts the timeouts in a row of the one packet, which is lost once for each time that it
has been sent. -/
def State.rtoExpiry (s : State) (die fid : Nat) : State :=
  let t := (s.die die).tx
  let f := t.flow fid
  match f.pkts.find? fun k => k.sent && !k.acked with
  | none => s
  | some k =>
    if k.backoff || s.cycle < max k.since f.rtoAt + t.rtoOf f.peer then s
    else
      let n := if f.rtoPsn = some k.psn then f.timeouts + 1 else 1
      let s := s.updTx die fun t => t.updFlow fid fun f =>
        { f.updPkt k.psn (fun k => { k with missing := true }) with timeouts := n, rtoAt := s.cycle, rtoPsn := some k.psn }
      let open' := (f.pkts.filter fun k => k.wire && !k.acked).length
      let s := s.raiseOut die 3 fid k (mkW [(k.psn % 2 ^ 32, 32), (open', 0)]) (BitVec.ofNat 64 (min n (2 ^ 32 - 1)))
      if k.missing then s else s.lostPkt die fid k

/-! ## Probes and ports (R162) -/

/-- The cycles at which the paths marked down are probed. -/
def probeCycle (n : Nat) : Bool := n % 2 ^ 20 == 0

/-- PATH_PROBE: every path marked down is probed, every 2²⁰ cycles; those of a port that lost its link for every peer. -/
def State.pathProbe (s : State) (die : Nat) : State :=
  if !probeCycle s.cycle then s
  else s.updTx die fun t =>
    { t with
      peers := t.peers.map fun p =>
        (p.1, { p.2 with slots := (List.range 64).foldl (fun l i =>
          let x := t.slot p.1 i
          if x.probing then tset l i { x with probed := true } else l) p.2.slots })
      dead := t.dead.map fun d => (d.1, true) }

/-- PROBE_ANSWER: the answer of a probe that is out, on a port that has its link. -/
def State.probeAnswer (s : State) (die peer slot rtt : Nat) : State :=
  let x := (s.die die).tx.slot peer slot
  if x.probed && !((s.die die).tx.linkDown.contains x.port) then
    let s := s.updTx die fun t => t.updSlot peer slot fun x => { x with probed := false }
    s.raise die { flow := 0, peer := peer, w0 := evW0 2 false x.port slot peer, w1 := 0, w2 := BitVec.ofNat 64 (rtt % 2 ^ 32), w3 := 0,
                  held := none, hdr := none }
  else s

/-- PORT_LINK_LOSS: every path on the port is marked down for every peer, whatever its weight, then PATHFAIL. -/
def State.portLoss (s : State) (die port : Nat) : State :=
  if (s.die die).tx.linkDown.contains port || 18 ≤ port then s
  else
    let s := s.updTx die fun t => { t with linkDown := t.linkDown ++ [port] }
    let peers := ((s.die die).tx.peers.map (·.1) ++ (s.die die).tx.flows.map (·.2.peer)).eraseDups
    let s := peers.foldl (fun (s : State) p =>
      (List.range 64).foldl (fun (s : State) i =>
        if ((s.die die).tx.slot p i).port = port then s.pathDown die p i else s) s) s
    let s := s.updTx die fun t => { t with dead := if (tget? t.dead port).isSome then t.dead else tset t.dead port false }
    s.raise die { flow := 0, peer := 0x1FFF, w0 := evW0 4 false port 63 0x1FFF, w1 := 0, w2 := 0, w3 := 0, held := none, hdr := none }

/-- PORT_LINK_UP: the port has its link again. -/
def State.portUp (s : State) (die port : Nat) : State :=
  s.updTx die fun t => { t with linkDown := t.linkDown.filter (· != port) }

/-! ## The meanings of the events -/

/-- Packets acknowledged: by each sequence number its bytes and its mark; one that is not listed is 0, or unmarked. -/
def execPacketAck (die flow : Nat) (psns bytes : List Nat) (marks : List Bool) (rtt : Nat) (s : State) :
    Host.Outcome State Fault Refusal :=
  .next (s.fromPort (s.packetAck die flow (psns.zipIdx.map fun p => ⟨p.1, (bytes[p.2]?).getD 0, (marks[p.2]?).getD false⟩) rtt))
/-- Packet negatively acknowledged. -/
def execPacketNack (die flow psn : Nat) (code : NackCode) (s : State) : Host.Outcome State Fault Refusal :=
  .next (s.fromPort (s.packetNack die flow psn code))
/-- Retry backoff expired. -/
def execRetryBackoffExpiry (die flow psn : Nat) (s : State) : Host.Outcome State Fault Refusal :=
  .next (s.retryExpiry die flow psn)
/-- Retransmission timeout. -/
def execRtoExpiry (die flow : Nat) (s : State) : Host.Outcome State Fault Refusal := .next (s.rtoExpiry die flow)
/-- Probe of the paths marked down. -/
def execPathProbe (die : Nat) (s : State) : Host.Outcome State Fault Refusal := .next (s.pathProbe die)
/-- Answer of a probe. -/
def execProbeAnswer (die peer slot rtt : Nat) (s : State) : Host.Outcome State Fault Refusal :=
  .next (s.fromPort (s.probeAnswer die peer slot rtt))
/-- A port loses link. -/
def execPortLinkLoss (die port : Nat) (s : State) : Host.Outcome State Fault Refusal := .next (s.portLoss die port)
/-- A port regains link. -/
def execPortLinkUp (die port : Nat) (s : State) : Host.Outcome State Fault Refusal := .next (s.portUp die port)

end Sys2Proof.Machine
end

