-- ==== Sys2Proof/Machine/Receive.lean ====
section
/-! DEFINITION. Packets that arrive at a transport: the judgement of R467, placement, in-port reduction, channels, messages,
global accesses and their answers, RMA reads (R115, R119 to R133, R138 to R144, R149 to R151, R163, R464 to R467). -/

namespace Sys2Proof.Machine

/-! ## Checks that need no entry (R115, R119, R128, R163, R464) -/

/-- The communication context that a job identifier names (R464). -/
def State.ctxOfJob (s : State) (job : Nat) : Option Nat := (s.comm.find? fun c => c.2.job == some job).map (·.1)

/-- The device's own flow that a packet belongs to, which it sends to itself without a port (R50). -/
def State.ownFlow (s : State) (die : Nat) (p : Packet) : Option Flow :=
  match tget? (s.die die).tx.flows p.flow with
  | some f => if f.peer == p.src && p.src == fld (s.asidEnt die f.asid).2 25 13 then some f else none
  | none => none

/-- The communication context of a packet (R464), or of the device's own access. -/
def State.ctxOfPkt (s : State) (die : Nat) (p : Packet) : Option Nat :=
  match s.ownFlow die p with
  | some f => some f.asid
  | none => s.ctxOfJob p.job

/-- OP of a packet. -/
def pkOp (p : Packet) : Nat := fld p.w0 59 56
/-- FMT. -/
def pkFmt (p : Packet) : Nat := fld p.w0 55 52
/-- HANDLE. -/
def pkHandle (p : Packet) : Nat := fld p.w0 47 24
/-- PLEN. -/
def pkLen (p : Packet) : Nat := fld p.w0 12 0
/-- The payload of PLEN bytes; bytes that the packet lacks read 0. -/
def pkBytes (p : Packet) : List Byte := (List.range (pkLen p)).map fun i => p.payload.getD i 0

/-- Whether a field that Table 06-2 shows as 0 is nonzero (check 3 of R119). A GATOM with an operation that R465 does not list, 8 to 15, or
with the reserved ASZ 11 fails here too, though the table calls these reserved and not 0: the model's choice (log 63). -/
def pkZeroBad (p : Packet) : Bool :=
  let op := pkOp p
  fld p.w0 15 13 != 0 || (op != 5 && fld p.w0 49 48 != 0) || (3 ≤ op && op != 5 && pkFmt p != 0) ||
  (3 ≤ op && pkHandle p != 0) || ((op == 0 || op == 2 || op == 4 || op == 7) && p.w2 != 0) ||
  (op == 5 && (8 ≤ pkFmt p || fld p.w0 49 48 == 3 || (6 ≤ pkFmt p && p.w2 != 0)))

/-- The number of the first of checks 1 to 3 that a packet fails (R119). -/
def pkMalformed (p : Packet) : Option Nat :=
  if fld p.w0 63 60 != 1 then some 1 else if 8 ≤ pkOp p then some 2 else if pkZeroBad p then some 3 else none

/-- Drops a packet as malformed (R119). -/
def State.malform (s : State) (die : Nat) (p : Packet) (n : Nat) : State :=
  let s := s.updTx die fun t => { t with malform := satAdd 32 t.malform 1 }
  s.raise die { flow := 0, peer := p.src, w0 := evW0 5 false 31 63 p.src, w1 := evW1 (p.flow % 2 ^ 24) ((s.ctxOfJob p.job).getD 0) 0,
                w2 := p.w0, w3 := BitVec.ofNat 64 n, held := none, hdr := none }

/-- Whether two packets are copies of one. -/
def pkSame (p q : Packet) : Bool := pktKey p == pktKey q && p.psn == q.psn

/-- Whether a copy of a packet is held, with an event or for a page (R163). -/
def State.isHeld (s : State) (die : Nat) (p : Packet) : Bool :=
  let d := s.die die
  (d.tc.queue ++ d.tc.cur.toList).any (fun e => (e.held.toList ++ (e.hdr.map (·.pkt)).toList).any (pkSame p)) || d.tx.rxHeld.any fun h => pkSame p h.2

/-- Whether a packet is a global access or an answer, whose flow is kept in order (R149). -/
def pkOrdered (p : Packet) : Bool := 3 ≤ pkOp p && pkOp p ≤ 6

/-- What becomes of a packet before it is judged: none if it is judged (R115, R119, R128, R163). One that is ahead of its flow, where that
is `ordered`, is dropped without an answer, to be sent again (R142, R149; log 57). -/
def State.arrivingOn (s : State) (die : Nat) (p : Packet) (ordered : Bool) : Option State :=
  let next := tget 0 (s.die die).tx.rodNext (pktKey p)
  if p.unsupp then some (s.updTx die fun t => { t with unsupp := satAdd 32 t.unsupp 1 })
  else if s.isHeld die p then some s
  else if p.trim then some (s.answerTo die p.src p.flow p.psn 5)
  else if (s.die die).tx.seen.contains (pktKey p, p.psn) then some (s.answerTo die p.src p.flow p.psn 0)
  else match pkMalformed p with
    | some n => some (s.malform die p n)
    | none =>
      if !ordered || p.psn = next then none
      else if p.psn < next then some (s.answerTo die p.src p.flow p.psn 0) else some s

/-- What becomes of a packet that is no message header before it is judged. -/
def State.arriving (s : State) (die : Nat) (p : Packet) : Option State := s.arrivingOn die p (pkOrdered p)

/-- A packet of an ordered flow is delivered: the next one is due (R142, R149). -/
def State.rodStep (s : State) (die : Nat) (p : Packet) : State :=
  s.updTx die fun t => { t with rodNext := tset t.rodNext (pktKey p) (p.psn + 1) }

/-- Answers "retry". -/
def State.retryIt (s : State) (die : Nat) (p : Packet) : State := s.answerTo die p.src p.flow p.psn 1
/-- Answers "no target". -/
def State.refuseIt (s : State) (die : Nat) (p : Packet) : State := s.answerTo die p.src p.flow p.psn 2

/-! ## The judgement of PLACE and REDUCE (R124, R129, R140, R467) -/

/-- What a judgement finds. -/
inductive Judged where
  | malformed (n : Nat)
  | retry
  | noTarget
  | stale
  | ok (asid : Nat) (p : Place)
  deriving Repr

/-- Steps 2 to 6 of R467, and the ring room of step 7. `red` asks for a reduce mode. -/
def State.judge (s : State) (p : Packet) (red : Bool) : Judged :=
  match s.ctxOfJob p.job with
  | none => .noTarget
  | some asid => match s.placeAt asid (pkHandle p) with
    | none => .noTarget
    | some pl =>
      let e := pl.words
      let ep := fld p.w0 23 16
      if ep = (plEpoch e + 1) % 256 then .retry
      else if ep != plEpoch e then .stale
      else if pkLen p != plBytes e then .malformed 4
      else if [0, 1, 2, 3].any (fun d => plNc e d ≤ coordOf p.w1 d) then .malformed 5
      else if (plMode e != 0) != red || pkFmt p != plFmt e then .noTarget
      else match s.owner e with
        | none => .retry
        | some (w, res, disp) =>
          let q := s.ringPtr w (plRing e)
          if !res || (plRingen e && !disp) then .retry
          else if plRingen e && (!s.ringUsable w (plRing e) || q.res != q.p || (s.ctx w).eng.ringCount (plRing e) ≤ q.taken)
          then .retry
          else .ok asid pl

/-- The comparison of an arriving packet's pair with the member's own operation (R140, R141): whether the packet goes on, is
answered "retry" or is dropped (0, 1, 2), and the state. -/
def State.joinPair (s : State) (die asid : Nat) (p : Packet) : Nat × State :=
  let g := fld p.w3 63 48
  let n := fld p.w3 47 16
  let dig := fld p.w3 15 0
  if g = 0 then (0, s)
  else
    let s := s.updComm asid fun m => m.updColl g fun c => c.knows [p.src]
    let c := (s.commOf asid).coll g
    if c.broken then (2, s)
    else if c.gseq + 16 < n then (1, s)
    else if n < c.gseq then
      if c.own.any fun o => o.1 == n && o.2 != dig then (2, s.breakGroup asid g (some die)) else (0, s)
    else if c.pairs.contains (n, dig) then (0, s)
    else (0, s.updComm asid fun m => m.updColl g fun c => { c with pairs := c.pairs ++ [(n, dig)] })

/-! ## Where bytes go (R123, R126) -/

/-- Writes a payload to the rows of a chunk. -/
def State.placeBytes (s : State) (asid : Nat) (e : List W64) (c : Nat → Nat) (bs : List Byte) : State :=
  let base := s.plBase e
  let n := elemBytes (plFmt e) (plCh e 0)
  (plRows e).foldl (fun (s : State) r =>
    s.bufWrite (plClu e) asid (bufAdd base (plRowOff e c r.2.1 r.2.2.1 r.2.2.2)) ((bs.drop r.1).take n)) s

/-! ## Completing an epoch (R125 to R127, R131, R146) -/

/-- Advances P and RES of a ring by n (R111). -/
def State.ringAdvP (s : State) (w : At) (h n : Nat) : State :=
  let q := s.ringPtr w h
  s.setRing w h { q with p := (q.p + n) % 2 ^ 32, res := (q.res + n) % 2 ^ 32 }

/-- What follows the last bit of an epoch: the ring advance, the owner's record, and the counter. -/
def State.epochDone (s : State) (asid h : Nat) (p : Place) : State :=
  let e := p.words
  let s := match plRingen e, s.owner e with
    | true, some (w, _, _) => (s.ringAdvP w (plRing e) 1).plClear asid e
    | _, _ => s
  let next : Place :=
    if plRingen e then
      { p with words := e.set 6 (setFld (wd e 6) 47 40 ((plEpoch e + 1) % 256)), count := [], epochs := p.epochs + 1 }
    else { p with epochs := p.epochs + 1 }
  let s := s.updPlace asid h next
  let s := if plEvt e then s.postTo ((s.ownerKey e).getD (plTrid e)) ⟨recW0 (fld (wd e 6) 15 0) 2 0 0 0 (plChunks e), 0⟩ else s
  if bit (wd e 6) 27 then s.addCtr asid (fld (wd e 6) 26 24) 1 else s

/-- Sets a chunk's bit; the last one of the epoch completes it. -/
def State.chunkDone (s : State) (asid h : Nat) (p : Place) (j : Nat) : State :=
  let was := s.plBit asid p.words j
  let s := (s.plSetBit asid p.words j).updPlace asid h p
  if !was && s.plFull asid p.words then s.epochDone asid h p else s

/-- Notes a sender. -/
def Place.from (p : Place) (src : Nat) : Place := if p.srcs.contains src then p else { p with srcs := p.srcs ++ [src] }

/-- Places a PLACE packet that passed every step (R123, R125). -/
def State.placeIt (s : State) (asid : Nat) (pl : Place) (p : Packet) : State :=
  let c := coordOf p.w1
  (s.placeBytes asid pl.words c (pkBytes p)).chunkDone asid (pkHandle p) (pl.from p.src) (plIndex pl.words c)

/-- Judges a packet, and does what `go` says with one that passes. -/
def State.judgeThen (s : State) (die : Nat) (p : Packet) (red : Bool) (go : State → Nat → Place → State) : State :=
  match s.judge p red with
  | .malformed n => s.malform die p n
  | .retry => s.retryIt die p
  | .noTarget => s.refuseIt die p
  | .stale => (s.updTx die fun t => { t with stale := satAdd 32 t.stale 1 }).accept die p
  | .ok asid pl =>
    let j := s.joinPair die asid p
    if j.1 = 1 then j.2.retryIt die p
    else if j.1 = 2 then j.2
    else go j.2 asid pl

/-- A packet of a message's payload: it is kept for the receive that its message matches (R142, R143; log 26). -/
def State.msgPart (s : State) (die : Nat) (p : Packet) : State :=
  match s.ctxOfJob p.job with
  | none => s.refuseIt die p
  | some asid => (s.updComm asid fun m =>
      { m with parts := m.parts ++ [(p.src, (wd p.sem 0).toNat, (wd p.sem 1).toNat, pkBytes p)] }).accept die p

/-- A PLACE packet is offered to its entry, or kept for its message. -/
def State.offerPlace (s : State) (die : Nat) (p : Packet) : State :=
  if !p.sem.isEmpty then s.msgPart die p else s.judgeThen die p false fun s asid pl => (s.placeIt asid pl p).accept die p

/-- RX_PLACE. -/
def State.rxPlaceIt (s : State) (die : Nat) (p : Packet) : State :=
  match s.arriving die p with
  | some s' => s'
  | none => s.offerPlace die p

/-! ## In-port reduction (R130 to R133) -/

/-- One contribution added to an accumulator of the table's kind (Table 06-5): FP32 for FP32 and BF16. -/
def redAdd (fmt acc x : Nat) : Nat :=
  if fmt = 0 || fmt = 1 then accStepF acc [(decodeFloat fmt x, .fin false 1 0)]
  else if fmt = 9 then (acc + x) % 2 ^ 32 else rnsAdd acc x

/-- A late contribution (R131): one rounding to the element format. -/
def redLate (fmt d x : Nat) : Nat :=
  if fmt = 0 || fmt = 1 then roundNE fmt (Num.add false (decodeFloat fmt d) (decodeFloat fmt x)) else redAdd fmt d x

/-- All contributions of a chunk to one element, in order: the accumulator starts from the destination. -/
def redAll (fmt d : Nat) (xs : List Nat) : Nat :=
  if fmt = 1 then
    roundNE 1 (decodeFloat 0 (xs.foldl (redAdd 1) (roundNE 0 (decodeFloat 1 d))))
  else xs.foldl (redAdd fmt) d

/-- Changes every element of a chunk by its place in the payload; the sum is one access of its element (R84). -/
def State.redMap (s : State) (asid : Nat) (e : List W64) (c : Nat → Nat) (f : Nat → Nat → Nat) : State :=
  let base := s.plBase e
  let sz := fmtWidth (plFmt e) / 8
  (plRows e).foldl (fun (s : State) r =>
    (List.range (plCh e 0)).foldl (fun (s : State) i =>
      let a := bufAdd base (plRowOff e c r.2.1 r.2.2.1 r.2.2.2 + (i * sz : Nat))
      s.bufWrite (plClu e) asid a (toBytes sz (f (ofBytes (s.bufRead (plClu e) asid a sz).1) (r.1 / max 1 sz + i)))) s) s

/-- Element i of a payload. -/
def payElem (fmt : Nat) (bs : List Byte) (i : Nat) : Nat :=
  let sz := fmtWidth fmt / 8
  ofBytes ((bs.drop (i * sz)).take sz)

/-- Staged contributions in the order of R133: by source, then by tag. -/
def stagedLe (a b : Nat × Nat × W64 × List Byte) : Bool :=
  a.2.1 < b.2.1 || (a.2.1 == b.2.1 && a.2.2.1.toNat ≤ b.2.2.1.toNat)

/-- Inserts a staged contribution in order. -/
def insertStaged (a : Nat × Nat × W64 × List Byte) : List (Nat × Nat × W64 × List Byte) → List (Nat × Nat × W64 × List Byte)
  | [] => [a]
  | b :: l => if stagedLe b a then b :: insertStaged a l else a :: b :: l

/-- Applies a contribution (R130, R131, R133). -/
def State.contribute (s : State) (die asid : Nat) (pl : Place) (p : Packet) : State :=
  let e := pl.words
  let h := pkHandle p
  let c := coordOf p.w1
  let j := plIndex e c
  let fmt := plFmt e
  let bs := pkBytes p
  let n := tget 0 pl.count j
  let pl := pl.from p.src
  if plContrib e ≤ n then
    (((s.redMap asid e c fun d i => redLate fmt d (payElem fmt bs i)).updTx die fun t =>
      { t with overred := satAdd 32 t.overred 1 }).updPlace asid h pl)
  else
    let last := n + 1 == plContrib e
    let stage := plMode e == 2 || fmt == 1
    let mine : Nat × Nat × W64 × List Byte := (j, p.src, p.w2, bs)
    let staged := if stage then (if plMode e = 2 then insertStaged mine pl.staged else pl.staged ++ [mine]) else pl.staged
    let s :=
      if !stage then s.redMap asid e c fun d i => redAdd fmt d (payElem fmt bs i)
      else if last then
        let all := (staged.filter fun x => x.1 == j).map (·.2.2.2)
        s.redMap asid e c fun d i => redAll fmt d (all.map fun b => payElem fmt b i)
      else s
    let pl' : Place := { pl with count := tset pl.count j (n + 1),
                                 staged := if last then staged.filter (fun x => x.1 != j) else staged }
    if last then s.chunkDone asid h pl' j else s.updPlace asid h pl'

/-- The smallest of a list of tags. -/
def lowTag (ts : List W64) : W64 := BitVec.ofNat 64 (ts.foldl (fun m t => min m t.toNat) (2 ^ 64 - 1))

/-- A tag enters a window of 4,096 (R132). -/
def addTag (ts : List W64) (t : W64) : List W64 :=
  let l := ts ++ [t]
  if 4096 < l.length then l.erase (lowTag l) else l

/-- Applies a REDUCE packet and notes its tag. -/
def State.reduceIt (s : State) (die asid : Nat) (pl : Place) (p : Packet) : State :=
  let s : State := { s with tags := tset s.tags p.src (addTag (tget [] s.tags p.src) p.w2) }
  (s.contribute die asid pl p).accept die p

/-- A REDUCE packet is offered to its entry: the tag check of R132 follows the judgement. One whose tag is out of window is held, unless
the transport core applies it, when its tag enters the window (R174). -/
def State.offerReduce (s : State) (die : Nat) (p : Packet) (late : Bool) : State :=
  s.judgeThen die p true fun s asid pl =>
    let ts := tget [] s.tags p.src
    if ts.contains p.w2 then
      let s := (s.updTx die fun t => { t with duptag := satAdd 32 t.duptag 1 }).accept die p
      s.raise die { flow := 0, peer := p.src, w0 := evW0 6 false 31 63 p.src, w1 := evW1 (p.flow % 2 ^ 24) asid 0, w2 := p.w2,
                    w3 := BitVec.ofNat 64 (pkHandle p), held := none, hdr := none }
    else if !late && 4096 ≤ ts.length && p.w2.toNat < (lowTag ts).toNat then
      s.raise die { flow := 0, peer := p.src, w0 := evW0 7 true 31 63 p.src, w1 := evW1 (p.flow % 2 ^ 24) asid 0, w2 := p.w2,
                    w3 := lowTag ts, held := some p, hdr := none }
    else s.reduceIt die asid pl p

/-- RX_REDUCE. -/
def State.rxReduceIt (s : State) (die : Nat) (p : Packet) : State :=
  match s.arriving die p with
  | some s' => s'
  | none => s.offerReduce die p false

/-! ## Channels (R138, R325) -/

/-- A CHAN packet is offered: the digest of a replica, its step and channel in the semantic header (log 26), else channel data, placed or
reduced as the entry's mode says. -/
def State.offerChan (s : State) (die : Nat) (p : Packet) (late : Bool) : State :=
  if !p.sem.isEmpty && pkLen p = 8 then
    match s.ctxOfJob p.job with
    | none => s.refuseIt die p
    | some asid => (s.updComm asid fun m =>
        { m with digests := m.digests ++ [((wd p.sem 1).toNat % 256, p.src, (wd p.sem 0).toNat, w64 (pkBytes p))] }).accept
          die p
  else match (s.ctxOfJob p.job).bind fun a => s.placeAt a (pkHandle p) with
    | some pl => if plMode pl.words = 0 then s.offerPlace die p else s.offerReduce die p late
    | none => s.offerPlace die p

/-- RX_CHAN. -/
def State.rxChanIt (s : State) (die : Nat) (p : Packet) : State :=
  match s.arriving die p with
  | some s' => s'
  | none => s.offerChan die p false

/-- A FLUSHP is answered: the device declares no persistent region (R136). -/
def State.offerFlush (s : State) (die : Nat) (p : Packet) : State :=
  if (s.ctxOfJob p.job).isNone then s.refuseIt die p
  else (s.markSeen die p).answerTo die p.src p.flow p.psn 3

/-- RX_FLUSHP. -/
def State.rxFlushIt (s : State) (die : Nat) (p : Packet) : State :=
  match s.arriving die p with
  | some s' => s'
  | none => s.offerFlush die p

/-! ## Messages (R142, R143) -/

/-- A header is answered for good: the next of its flow is due (R142). -/
def State.passHdr (s : State) (die : Nat) (h : MsgHdr) (code : Nat) : State := (s.rodStep die h.pkt).answerHdr die h code

/-- A header is delivered. -/
def State.takeHdr (s : State) (die : Nat) (h : MsgHdr) : State := (s.markSeen die h.pkt).passHdr die h 0

/-- Gives a header to the receive that takes it, or holds it in the unexpected queue; none when that queue is full (R142, R143). -/
def State.matchHdr (s : State) (die asid : Nat) (h : MsgHdr) : Option State :=
  let m := s.commOf asid
  match m.posted.find? fun p => p.takes h with
  | some p => some (((s.updComm asid fun m => { m with posted := m.posted.erase p }).giveMsg asid p h).takeHdr die h)
  | none =>
    if m.unexp.length < 65536 then some ((s.updComm asid fun m => { m with unexp := m.unexp ++ [h] }).takeHdr die h)
    else none

/-- A header that every check before the matching passed: it is delivered, and raises MATCHOVF where nothing can take it (R143). -/
def State.msgMatch (s : State) (die asid : Nat) (h : MsgHdr) : State :=
  match s.matchHdr die asid h with
  | some s' => s'
  | none =>
    s.raise die { flow := 0, peer := h.pkt.src, w0 := evW0 8 true 31 63 h.pkt.src, w1 := evW1 (h.pkt.flow % 2 ^ 24) asid 0,
                  w2 := h.tag, w3 := BitVec.ofNat 64 (h.len % 2 ^ 32), held := none, hdr := some h }

/-- MESSAGE_HEADER_MATCH: the headers of one flow are taken in the order of their numbers (R142). -/
def State.msgHeader (s : State) (die : Nat) (h : MsgHdr) : State :=
  match s.arrivingOn die h.pkt true with
  | some s' => s'
  | none => match s.ctxOfJob h.pkt.job with
    | none => s.passHdr die h 2
    | some asid => s.msgMatch die asid h

/-- CHANNEL_CREDIT (R138). -/
def State.chanCredit (s : State) (asid chan peer : Nat) : State :=
  s.updComm asid fun m => { m with credits := tset m.credits (chan * 8192 + peer) (m.outstanding chan peer - 1) }

/-! ## Global accesses at the target (R50, R61, R149, R150, R340, R465) -/

/-- Whether a GATOM that faults is held, or answered at once as a reduction is (R150): the mark of a peer's packet says so (log 49),
and the device knows its own. -/
def atomLive (p : Packet) : Bool := !p.noret

/-- Answers a global access (R465): fault kind and flags in `st`; the semantic header names the sequence number of the access
(log 26). The device's own answer arrives at once. -/
def State.respond (s : State) (die asid : Nat) (p : Packet) (st : W64) (bs : List Byte) : State :=
  let own := (s.ownFlow die p).isSome
  let s := s.accept die p
  let w0 := pktW0 6 0 0 bs.length
  if own then
    { s with agenda := s.agenda ++ [.rxGresp die { p with w0 := w0, w2 := st, payload := bs, sem := [BitVec.ofNat 64 p.psn] }] }
  else
    let fid := 2 ^ 56 + p.flow * 8192 + p.src
    s.updTx die fun t =>
      { t with flows := tset t.flows fid ((tget (Flow.new p.src asid true) t.flows fid).add { newPkt p.job 0 w0 p.w1 st 0 bs with sem := [BitVec.ofNat 64 p.psn] }) }

/-- Bytes that a global access touches. -/
def pkSize (p : Packet) : Nat :=
  match pkOp p with
  | 3 => fld p.w2 3 0
  | 4 => pkLen p
  | _ => 4 * 2 ^ fld p.w0 49 48

/-- What a global access needs of its leaf. -/
def pkNeed (p : Packet) : Need :=
  match pkOp p with
  | 3 => .load
  | 4 => .store
  | _ => .rmw

/-- The parts of a global access with their translations at the target, split at a line boundary on an SO page (R329). -/
def State.targetParts (s : State) (die asid : Nat) (va : W64) (n : Nat) (p : Packet) : List (W64 × Nat × Except Fail Xl) :=
  ((pageParts va n).map fun q => splitLine q.1 q.2 (s.unitLocal .transport die asid q.1 (pkNeed p) (BitVec.allOnes 64))).flatten

/-- The first failure of a global access at the target, over its pages, and the address that it is at. -/
def State.targetFail (s : State) (va : W64) (n : Nat) (p : Packet) (parts : List (W64 × Nat × Except Fail Xl)) :
    Option (Fail × W64) :=
  parts.findSome? fun q => match q.2.2 with
    | .error f => some (f, q.1)
    | .ok x =>
      if pkOp p = 5 && (isDevFrame x.pa || s.noAtomicOp x (pkFmt p)) then some (.page 5, q.1)
      else if isDevFrame x.pa && va.toNat % max 1 n != 0 then some (.page 5, q.1) else none

/-- What a global access at the target waits for: the bias of its pages and of those that its translation walks (R387). -/
def State.targetBias (s : State) (die asid : Nat) (va : W64) (n : Nat) (p : Packet) (parts : List (W64 × Nat × Except Fail Xl)) :
    Option (State → State) :=
  ((pageParts va n).findSome? fun q => s.unitWalkWait .transport die asid q.1).or
    (parts.findSome? fun q => match q.2.2 with
      | .ok x => s.homeWait x (pkOp p != 3) q.2.1
      | .error _ => none)

/-- Performs one translated part of a global access at its home slice: what it reads, and the state (R149). -/
def State.globalPart (s : State) (die asid : Nat) (va : W64) (n : Nat) (p : Packet) (q : W64 × Nat) (x : Xl) :
    List Byte × State :=
  let s := s.unitFill .transport die asid q.1.toNat
  let r := if isDevFrame x.pa then (s.devRead x.pa q.2, s) else if pkOp p = 4 then ([], s)
    else s.homeAccess x asid q.2 (pkOp p == 5)
  let old := r.1
  let s := r.2
  let wr := fun (bs : List Byte) =>
    if isDevFrame x.pa then s.devWrite x.pa bs else s.homePuts x asid (bs.zipIdx.map fun b => (x.pa + b.2, b.1))
  match pkOp p with
  | 3 => (old, s)
  | 4 => ([], wr ((pkBytes p).drop (q.1 - va).toNat |>.take q.2))
  | _ =>
    let cas := 6 ≤ pkFmt p
    let sv := if cas then ofBytes ((pkBytes p).drop n) else p.w2.toNat % 2 ^ (8 * n)
    let cv := if cas then ofBytes ((pkBytes p).take n) else 0
    (old, if cas && ofBytes old != cv then s else wr (toBytes n (atomicNew (pkFmt p) (8 * n) (ofBytes old) sv cv)))

/-- Performs a global access whose address translates: its answer's flags, its bytes, and the state. A synchronisation access, an atomic
or an access to an SO page is checked and recorded with domain (dev) (R339, R340). -/
def State.performGlobal (s : State) (die asid : Nat) (va : W64) (n : Nat) (p : Packet)
    (parts : List (W64 × Nat × Except Fail Xl)) : W64 × List Byte × State :=
  let sync := fun (x : Xl) => pkOp p == 5 || p.sync || x.okind == 0
  let refused := parts.any fun q => match q.2.2 with
    | .ok x => sync x && !(s.scopeOk (2 * die) x true .dev)
    | .error _ => false
  if refused then (32, [], s)
  else parts.foldl (fun (r : W64 × List Byte × State) q => match q.2.2 with
    | .error _ => r
    | .ok x =>
      let s := r.2.2
      let s := if sync x then s.setRec (2 * die) x true .dev else s
      let d := s.globalPart die asid va n p (q.1, q.2.1) x
      (r.1, r.2.1 ++ d.1, d.2)) (0, [], s)

/-- Whether an access of a flow is held at the target, behind which later ones of the flow are held (R150). -/
def State.flowHeld (s : State) (die : Nat) (p : Packet) : Bool := (s.die die).tx.rxHeld.any fun h => pktKey h.2 == pktKey p

/-- Serves a global access at the target: performed and answered, answered with a fault, or held until its page is mapped or in
device bias, with every later access of its flow (R61, R150, R387). `ask` says that a page not present is to be requested. The fault of
a store or reduction, which will be logged, sends a page request whatever its kind, but for a device-register frame (R47, R66). -/
def State.serve (s : State) (die : Nat) (p : Packet) (declined ask : Bool) : State :=
  match s.ctxOfPkt die p with
  | none => s.refuseIt die p
  | some asid =>
    let va := s.windowVa die asid (fld p.w1 46 0)
    let n := pkSize p
    let parts := s.targetParts die asid va n p
    let hold := fun (s : State) => s.updTx die fun t => { t with rxHeld := t.rxHeld ++ [(asid, p)] }
    if s.flowHeld die p then hold s
    else match s.targetBias die asid va n p parts with
      | some f => hold (f s)
      | none => match s.targetFail va n p parts with
      | some (f, at') =>
        let live := pkOp p = 3 || (pkOp p = 5 && atomLive p)
        let kind : Nat := if pkOp p = 3 then 0 else 1
        if f == .page 0 && live && !declined then hold (if ask then s.pageRequest die asid at' kind else s)
        else
          let s := if !live && f != .page 5 then s.pageRequest die asid at' 1 else s
          s.respond die asid p (mkW [(1, 4), (f.fkind, 0)]) []
      | none =>
        let r := s.performGlobal die asid va n p parts
        r.2.2.respond die asid p r.1 (if r.1 = 0 then r.2.1 else [])

/-- A global access that arrives. -/
def State.rxGlobal (s : State) (die : Nat) (p : Packet) : State :=
  match s.arriving die p with
  | some s' => s'
  | none => (s.rodStep die p).serve die p false true

/-- Serves again what is held at a die, `declined` saying which accesses' page requests have been declined. -/
def State.serveHeld (s : State) (die : Nat) (declined : Nat → W64 → Bool) (ask : Bool) : State :=
  let l := (s.die die).tx.rxHeld
  let s := s.updTx die fun t => { t with rxHeld := [] }
  l.foldl (fun (s : State) h =>
    let va := s.windowVa die h.1 (fld h.2.w1 46 0)
    let at' := ((s.targetFail va (pkSize h.2) h.2 (s.targetParts die h.1 va (pkSize h.2) h.2)).map (·.2)).getD va
    s.serve die h.2 (declined h.1 at') ask) s

/-- Serves again what is held at a die for an ASID, after its page is mapped, or declined at an address (R61). -/
def State.retryHeld (s : State) (die asid : Nat) (declined : Option W64) : State :=
  s.serveHeld die (fun a va => match declined with
    | some d => a == asid && d.toNat / 4096 == va.toNat / 4096
    | none => false) declined.isNone

/-! ## GRESP (R149 to R151, R340) -/

/-- Gives a GLOAD's or GATOM's data to the registers that wait for it. -/
def State.landGlobal (s : State) (w : At) (a : GAcc) (bs : List Byte) : State :=
  let fill := fun (e : SbEnt) =>
    let v : VReg :=
      if a.op = 5 then BitVec.ofNat 2048 (ofBytes bs / 2 ^ e.lo % 2 ^ 64)
      else if e.file == .v then BitVec.ofNat 2048 (ofBytes bs <<< e.lo)
      else (if e.sx then BitVec.ofInt 64 (sextNat (ofBytes bs) (8 * a.size)) else BitVec.ofNat 64 (ofBytes bs)).setWidth 2048
    { e with value := v, ready := true }
  s.updPipe w fun p => { p with sb := mapIf (fun e => !e.ready && e.acc == a.id) fill p.sb }

/-- An access that sends an entry again faults at its target: one whose page is not present waits for it, any other keeps its entry and
suspends its context (R66, R68). -/
def State.leesAgain (s : State) (a : GAcc) (stamp kind : Nat) : State :=
  if kind = 0 then s
  else (s.updEntry a.trid stamp fun e => { e with failed := true }).deferTo a.trid
    { trapDeferred 6 a.acc kind (blockVa a.va) true none with lane := none }

/-- The answer to the oldest access of a flow: its data, its fault, or its refusal (R150, R340). -/
def State.answerAcc (s : State) (a : GAcc) (w2 : W64) (bs : List Byte) : State :=
  let s' := if a.load then s.clearGlobal a else s
  if bit w2 5 then
    let s' := match a.lees with
      | some st => s'.leesLost a st
      | none => s'
    s'.deferTo a.trid (trapDeferred 9 a.acc 0 a.va true (some a.bundle))
  else if bit w2 4 then
    if a.load then s'.deferTo a.trid (trapDeferred 6 a.acc (fld w2 3 0) a.va true none)
    else match a.lees with
      | some st => s.leesAgain a st (fld w2 3 0)
      | none => s.logRemote a
  else match a.lees, s.whereIs a.trid with
    | some st, _ => s.leesDone a st
    | none, some w => if a.load then s.landGlobal w a bs else s
    | none, none => s

/-- RX_GRESP: the answer to the oldest access of its flow; where it names an access that has ended without it, it is that one's and
changes nothing (R149, R151, log 26). -/
def State.gresp (s : State) (die : Nat) (p : Packet) : State :=
  match ((s.die die).tx.flow p.flow).accs with
  | [] => s
  | a :: _ =>
    if p.sem != [] && p.sem != [BitVec.ofNat 64 a.psn] then s
    else
      let s := s.updTx die fun t => t.updFlow p.flow fun f =>
        { f with accs := f.accs.drop 1, pkts := f.pkts.filter fun k => k.opid != a.opid }
      s.answerAcc a p.w2 (pkBytes p)

/-- RX_GRESP. -/
def State.rxGrespIt (s : State) (die : Nat) (q : Packet) : State :=
  let p := { q with resp := true }
  match s.arriving die p with
  | some s' => s'
  | none => ((s.rodStep die p).gresp die p).accept die p

/-- REMOTE_PAGE_MAPPED_REPORT: a logged global store or reduction is tried again, once its target reports the page mapped (R66); that of
a saved task is marked, and is tried once the task is resumed. -/
def State.resendLees (s : State) (core stamp trid : Nat) : State :=
  let mine := fun (e : Lees) => e.remote && e.stamp == stamp && idOf e.trid == idOf trid
  let s := (s.named trid).foldl (fun (s : State) k => s.updTask k fun t =>
    if t.saved then { t with leesAway := mapIf (fun e => e.remote && e.stamp == stamp) (fun e => { e with ready := true }) t.leesAway }
    else t) s
  (s.updCore core fun k => { k with lees := mapIf mine (fun e => { e with ready := true }) k.lees }).settleLees core

/-! ## Packets that the transport core applies (R171, R174, R179) -/

/-- A held packet that the transport core applies: the checks that need no entry are made afresh, and it is offered again as what its OP
now says, under the rules of arrival. An answer that it has become is none to an access of this device, and does nothing (log 63). -/
def State.applyHeld (s : State) (die : Nat) (p : Packet) : State :=
  match pkMalformed p with
  | some n => s.malform die p n
  | none => match pkOp p with
    | 0 => s.offerPlace die p
    | 1 => s.offerReduce die p true
    | 2 => s.offerChan die p true
    | 6 => s.accept die p
    | 7 => s.offerFlush die p
    | _ => s.serve die p false true

/-- A header that the transport core applies: judged afresh, then matched or held if there is room, else answered "retry"; one that is no
header any more is offered as what it is. -/
def State.applyHdr (s : State) (die : Nat) (h : MsgHdr) : State :=
  match pkMalformed h.pkt, s.ctxOfJob h.pkt.job with
  | some n, _ => s.malform die h.pkt n
  | none, none => s.passHdr die h 2
  | none, some asid =>
    if pkOp h.pkt != 2 then (s.rodStep die h.pkt).applyHeld die h.pkt
    else (s.matchHdr die asid h).getD (s.answerHdr die h 1)

/-! ## RMA reads (R103, R143, R144, R178, R313) -/

/-- A range cut at page boundaries: address and bytes of each piece. -/
def unitPages (va len : Nat) : List (Nat × Nat) :=
  (List.range ((va % 4096 + len + 4095) / 4096)).map fun i =>
    let a := if i = 0 then va else va / 4096 * 4096 + 4096 * i
    (a, min (va + len) (va / 4096 * 4096 + 4096 * (i + 1)) - a)

/-- The translated pages of a range of a device's window, each with its bytes; the fault of the first that has one. -/
def State.windowPages (s : State) (die asid : Nat) (va : W64) (len : Nat) : Except Fail (List (Xl × Nat)) :=
  (unitPages va.toNat len).foldl (fun acc p => match acc with
    | .error f => .error f
    | .ok l => match s.unitXlate .transport die asid (BitVec.ofNat 64 p.1) .load (BitVec.allOnes 64) with
      | .error f => .error f
      | .ok x => .ok (l ++ [(x, p.2)])) (.ok [])

/-- Reads translated pages at their home slices. -/
def State.readPages (s : State) (asid : Nat) (l : List (Xl × Nat)) : List Byte × State :=
  l.foldl (fun (r : List Byte × State) p =>
    let q := r.2.homeAccess p.1 asid p.2 false
    (r.1 ++ q.1, q.2)) ([], s)

/-- Answers an RMA read in packets of up to 4,096 bytes, a fault as its kind: each says its offset and the status, and is one of the operation
whose message it carries. -/
def State.rmaAnswer (s : State) (die asid src opid off : Nat) (st : W64) (bs : List Byte) : State :=
  (List.range (max 1 ((bs.length + 4095) / 4096))).foldl (fun (s : State) i =>
    s.queuePkt die asid src false (semPkt opid [BitVec.ofNat 64 (off + 4096 * i), st] ((bs.drop (4096 * i)).take 4096))) s

/-- Holds an RMA read until it can be served. -/
def State.holdRma (s : State) (die job src off len rkey : Nat) : State :=
  s.updTx die fun t => { t with rmaHeld := t.rmaHeld ++ [(job, src, off, len, rkey)] }

/-- The request of a receive that has taken `len` bytes of an open message: it ends the message's wait for it, with TRUNC where it is cut
short (R144), and a message of more than 16 KiB sends them (R143); a page of the source that is not present is requested and waited for
(R103). -/
def State.msgPull (s : State) (die job src off len : Nat) (o : TxOp) : State :=
  let n := ((s.opChunks o).map (·.2)).sum
  if n ≤ 16384 then s.opAcked die o.opid 0 (len < n)
  else
    let k := min len n
    let va := wd o.words 0
    let wait := if tdLkind o.words then none else s.opBias o false [(va, k)]
    match wait with
    | some f => (f s).holdRma die job src off len o.opid
    | none => match s.opRead o (tdLkind o.words) va k with
      | .error f =>
        let s' := s.opFail die o f false
        if f.1.pauses o.waitPg then s'.holdRma die job src off len o.opid
        else s'.rmaAnswer die o.asid src 0 off (mkW [(1, 4), (f.1.fkind, 0)]) []
      | .ok (bs, s) =>
        (s.rmaAnswer die o.asid src o.opid off 0 bs).updOp die o.opid fun x =>
          { x with total := x.total - 1 + max 1 ((k + 4095) / 4096), status := if len < n then 10 else x.status }

/-- RMA_READ_REQUEST: the bytes of the device's window, or with an `rkey` the request of a receive that has taken a message. A job that
names no communication context is answered "no target" (R464). A read of a page in host bias waits for it (R387). A message that has
ended, by POST too, sends nothing more (R178). -/
def State.rmaRead (s : State) (die job src off len rkey : Nat) : State :=
  match s.ctxOfJob job with
  | none => s.answerTo die src 0 rkey 2
  | some asid =>
    if rkey = 0 then
      let va := s.windowVa die asid off
      match s.windowPages die asid va len with
      | .error f => s.rmaAnswer die asid src 0 off (mkW [(1, 4), (f.fkind, 0)]) []
      | .ok l => match s.unitBias .transport die asid false [(va, len)] with
        | some f => (f s).holdRma die job src off len 0
        | none =>
          let r := s.readPages asid l
          r.2.rmaAnswer die asid src 0 off 0 r.1
    else match (s.die die).tx.ops.find? fun o => o.opid == rkey && o.kind == 4 && o.asid == asid && !o.ready with
      | none => s
      | some o => s.msgPull die job src off len o

/-- Serves again the RMA reads that wait at a die. -/
def State.retryRma (s : State) (die : Nat) : State :=
  let l := (s.die die).tx.rmaHeld
  (l.foldl (fun (s : State) r => s.rmaRead die r.1 r.2.1 r.2.2.1 r.2.2.2.1 r.2.2.2.2) (s.updTx die fun t => { t with rmaHeld := [] }))

/-- RMA_READ_RESPONSE: the data is to be written to LADDR, or the peer's fault ends the operation. -/
def State.rmaData (s : State) (die opid : Nat) (bytes : List Byte) (fkind : Option Nat) : State :=
  match (s.die die).tx.ops.find? fun o => o.opid == opid && !o.ready && (o.kind == 1 || o.kind == 7 || o.kind == 8) with
  | none => s
  | some o => match fkind with
    | some k => s.endOp die opid 1 k (if o.kind = 1 then BitVec.ofNat 64 (fld (wd o.words 2) 46 0) else o.addr)
    | none => s.updOp die opid fun x =>
        { x with data := some (bytes.take (if o.kind = 1 then tdNch o.words * tdChb o.words else o.total)) }

/-! ## The meanings of the events -/

/-- A PLACE packet. -/
def execRxPlace (die : Nat) (p : Packet) (s : State) : Host.Outcome State Fault Refusal := .next (s.fromPort (s.rxPlaceIt die p))
/-- A REDUCE packet. -/
def execRxReduce (die : Nat) (p : Packet) (s : State) : Host.Outcome State Fault Refusal := .next (s.fromPort (s.rxReduceIt die p))
/-- A CHAN packet. -/
def execRxChan (die : Nat) (p : Packet) (s : State) : Host.Outcome State Fault Refusal := .next (s.fromPort (s.rxChanIt die p))
/-- An arrival of a packet of a global access, or of its answer: the device's own do not come through a port (R50). -/
def State.arrival (s : State) (die : Nat) (p : Packet) (t : State) : State :=
  if (s.ownFlow die p).isSome then t else s.fromPort t

/-- A GLOAD packet. -/
def execRxGload (die : Nat) (p : Packet) (s : State) : Host.Outcome State Fault Refusal :=
  .next (s.arrival die p (s.rxGlobal die p))
/-- A GSTORE packet. -/
def execRxGstore (die : Nat) (p : Packet) (s : State) : Host.Outcome State Fault Refusal :=
  .next (s.arrival die p (s.rxGlobal die p))
/-- A GATOM packet. -/
def execRxGatom (die : Nat) (p : Packet) (s : State) : Host.Outcome State Fault Refusal :=
  .next (s.arrival die p (s.rxGlobal die p))
/-- A GRESP packet. -/
def execRxGresp (die : Nat) (p : Packet) (s : State) : Host.Outcome State Fault Refusal :=
  .next (s.arrival die p (s.rxGrespIt die p))
/-- A FLUSHP packet. -/
def execRxFlushp (die : Nat) (p : Packet) (s : State) : Host.Outcome State Fault Refusal := .next (s.fromPort (s.rxFlushIt die p))
/-- A message header. -/
def execMessageHeaderMatch (die : Nat) (h : MsgHdr) (s : State) : Host.Outcome State Fault Refusal := .next (s.fromPort (s.msgHeader die h))
/-- A channel credit. -/
def execChannelCredit (asid chan peer : Nat) (s : State) : Host.Outcome State Fault Refusal :=
  .next (s.fromPort (s.chanCredit asid chan peer))
/-- A broken notice. -/
def execCollBrokenNotice (asid group : Nat) (s : State) : Host.Outcome State Fault Refusal :=
  .next (s.fromPort (s.breakGroup asid group none))
/-- A group is reset (R141). -/
def execCollGroupReset (asid group : Nat) (s : State) : Host.Outcome State Fault Refusal :=
  .next (s.updComm asid fun m => { m with groups := tdel m.groups group })
/-- An RMA read arrives. -/
def execRmaReadRequest (die job src off len rkey : Nat) (s : State) : Host.Outcome State Fault Refusal :=
  .next (s.fromPort (s.rmaRead die job src off len rkey))
/-- The data of an RMA read arrives. -/
def execRmaReadResponse (die opid : Nat) (bytes : List Byte) (fkind : Option Nat) (s : State) :
    Host.Outcome State Fault Refusal := .next (s.fromPort (s.rmaData die opid bytes fkind))
/-- A target reports a page mapped. -/
def execRemotePageMappedReport (core stamp trid : Nat) (s : State) : Host.Outcome State Fault Refusal :=
  .next (s.fromPort (s.resendLees core stamp trid))

end Sys2Proof.Machine
end

