-- ==== Sys2Proof/Machine/Events.lean ====
section
/-! DEFINITION. The events of a core and of translation: results that land, deferred traps, walks, the page service,
held releases, shoot-downs, cask bookkeeping, stall counts and ageing (R60 to R70, R81, R85, R231, R233, R363, R365, R377). -/

namespace Sys2Proof.Machine

open Sys2Proof

/-! ## Results (R231, R233) -/

/-- FIXED_RESULT_LAND: every result due before the count of the next bundle is written. A result due at that count is
written by the issue of that bundle, since a trap there would set it aside (R231, R379). -/
def execFixedResultLand (core ctx : Nat) (s : State) : Host.Outcome State Fault Refusal :=
  .next (s.updCtx ⟨core, ctx⟩ fun c => if c.pipe.count = 0 then c else c.landTo (c.pipe.count - 1))

/-- Writes a scoreboarded result whose data has arrived and clears its entry (R233). -/
def Ctx.landSb (c : Ctx) (i : Nat) : Ctx :=
  match c.pipe.sb[i]? with
  | none => c
  | some e =>
    if e.ready then
      { c with regs := c.regs.put e.file e.reg e.mask e.value
               pipe := { c.pipe with sb := c.pipe.sb.eraseIdx i } }
    else c

/-- SCOREBOARD_RESULT_LAND. -/
def execScoreboardResultLand (core ctx i : Nat) (s : State) : Host.Outcome State Fault Refusal :=
  .next (s.updCtx ⟨core, ctx⟩ fun c => c.landSb i)

/-! ## Deferred traps (R377, R380) -/

/-- DEFERRED_TRAP_SUSPEND: a boundary takes the oldest deferred trap, whose save serves a pre-emption that waits there too (R376); a
context that has stopped is saved once it has settled and the trace has room (R371). -/
def State.boundary (s : State) (w : At) : State :=
  let c := s.ctx w
  match c.sched.stop with
  | some st =>
    if s.stopReady w st then s.finishStop w st
    else if s.settled w && st.kind != 3 && !s.mayDecide (dieOf w.core) 1 then s.logFull (dieOf w.core) else s
  | none => if c.sched.run == .idle then s else s.suspend w

/-- DEFERRED_TRAP_SUSPEND. -/
def execDeferredTrapSuspend (core ctx : Nat) (s : State) : Host.Outcome State Fault Refusal :=
  .next (s.boundary ⟨core, ctx⟩)

/-! ## Scheduling counts (R363, R365) -/

/-- STALL_SWITCH_COUNT: one more cycle of the holding context in Stalled. -/
def State.countStall (s : State) (core : Nat) : State :=
  match (s.core core).holder with
  | none => s
  | some k =>
    if (s.ctx ⟨core, k⟩).sched.run == .stalled then
      s.updSched ⟨core, k⟩ fun x => { x with stalled := min 8 (x.stalled + 1) }
    else s

/-- STALL_SWITCH_COUNT. -/
def execStallSwitchCount (core : Nat) (s : State) : Host.Outcome State Fault Refusal := .next (s.countStall core)

/-- PRIORITY_AGING: one more cycle of a context in Ready without issuing. -/
def State.age (s : State) (w : At) : State :=
  if (s.ctx w).sched.run == .ready then
    s.updSched w fun x => { x with readyFor := min 65536 (x.readyFor + 1), aged := x.aged || 65536 ≤ x.readyFor + 1 }
  else s

/-- PRIORITY_AGING. -/
def execPriorityAging (core ctx : Nat) (s : State) : Host.Outcome State Fault Refusal := .next (s.age ⟨core, ctx⟩)

/-! ## Walks (R60) -/

/-- PAGE_WALK_COMPLETE: what the walk finds is installed; a walk that finds a fault installs nothing. -/
def execPageWalkComplete (core asid : Nat) (va : W64) (s : State) : Host.Outcome State Fault Refusal :=
  .next (s.coreFill core asid va.toNat)

/-! ## The page service (R61, R66, R68, R103) -/

/-- Whether an address lies in a page that the page service has just mapped: the page that the tables now give, or the
4 KiB page if they give none. -/
def State.samePage (s : State) (die asid : Nat) (va : W64) (a : Nat) : Bool :=
  match (s.walk die asid va.toNat).1 with
  | .ok e => e.vbase ≤ a && a < e.vbase + e.size
  | .error _ => a / 4096 == va.toNat / 4096

/-- Whether a hold is on a page. -/
def PageHold.on (h : PageHold) (asid : Nat) (same : Nat → Bool) : Bool := h.asid == asid && same h.va.toNat

/-- Rewrites every hold on a page: those of loads, copy entries, transport operations, the step sequencers, the task
sequencers and the queues. -/
def State.mapHolds (s : State) (p : PageHold → Bool) (f : PageHold → Option PageHold) : State :=
  let h := fun (o : Option PageHold) => match o with
    | some x => if p x then f x else some x
    | none => none
  let ctx := fun (c : Ctx) =>
    { c with sched := { c.sched with hold := h c.sched.hold }
             copyq := c.copyq.map fun e => { e with paused := h e.paused } }
  { s with
    cores := s.cores.map fun k => (k.1, { k.2 with ctxs := k.2.ctxs.map fun c => (c.1, ctx c.2) })
    clus := s.clus.map fun k => (k.1, { k.2 with seqHold := h k.2.seqHold })
    dies := s.dies.map fun d => (d.1,
      { d.2 with steps := d.2.steps.map (fun x => (x.1, { x.2 with paused := h x.2.paused }))
                 adds := d.2.adds.map (fun a => { a with hold := h a.hold })
                 tx := { d.2.tx with ops := d.2.tx.ops.map fun o => { o with waitPg := h o.waitPg } } })
    queues := s.queues.map fun q => (q.1, { q.2 with held := h q.2.held }) }

/-- The cores whose log or whose held releases and cache operations have something to settle. -/
def State.leesCores (s : State) : List Nat :=
  s.cores.filterMap fun k => if k.2.lees.isEmpty && s.releases.isEmpty && s.cacheOps.isEmpty then none else some k.1

/-- PAGE_MAPPED: held accesses are tried again, logged entries of the page replay in stamp order (R61, R66, R103). -/
def State.mapped (s : State) (asid : Nat) (va : W64) : State :=
  let s := s.mapHolds (PageHold.on · asid (s.samePage 0 asid va)) fun _ => none
  let mark := fun (core : Nat) (e : Lees) =>
    if !e.remote && e.asid == asid && s.samePage (dieOf core) asid va e.va.toNat then { e with ready := true } else e
  let s : State := { s with cores := s.cores.map fun k => (k.1, { k.2 with lees := k.2.lees.map (mark k.1) }) }
  let s := s.leesCores.foldl (fun (s : State) c => s.settleLees c) s
  (s.dies.map (·.1)).foldl (fun (s : State) d => s.retryHeld d asid none) s

/-- Writes back the dirty bytes of a frame's lines, from every cluster cache and home slice, and of a host-homed frame to the host
(R396 step 3). -/
def State.writeBackFrame (s : State) (frame : Nat) : State :=
  (List.range 32).foldl (fun (s : State) i =>
    let line := frame / 128 + i
    ((s.clus.map (·.1)).foldl (fun (s : State) c => s.flushLine c line) s).hostBack line false) s

/-- A step of the page service (R396): the leaf is written and the page copied at the home slices. -/
def State.pageStep (s : State) (asid : Nat) : PageSvc → State
  | .mapped va => s.mapped asid va
  | .leaf pa w => s.homeWrite 0 pa (toBytes 8 w.toNat)
  | .writeBack f => s.writeBackFrame f
  | .copy a b => (List.range 32).foldl (fun (s : State) i => s.homeWrite 0 (b + 128 * i) (s.homeRead (a + 128 * i) 128)) s

/-- PAGE_MAPPED, with the steps of the page service that lead to it. -/
def execPageMapped (asid : Nat) (svc : PageSvc) (s : State) : Host.Outcome State Fault Refusal := .next (s.pageStep asid svc)

/-- The entries of a core that wait for a declined page fail: each suspends its context at the next boundary, with the failure that
it meets and its own address (R68). -/
def State.declineLees (s : State) (core asid page : Nat) : State :=
  ((s.core core).lees.filter fun e => !e.remote && !e.failed && e.asid == asid && e.va.toNat / 4096 == page).foldl
    (fun (s : State) e =>
      let w : At := ⟨core, e.ctx⟩
      match s.xlate w e.asid ((s.ctx w).extentFor e.va.toNat 256) e.va (if e.op == .store then .store else .rmw) e.kperm with
      | .ok _ => s.updLees core e fun x => { x with ready := true }
      | .error f => (s.updLees core e fun x => { x with failed := true }).addDeferred w
          (trapDeferred f.cause.1 e.acc f.cause.2 e.va false none)) s

/-- PAGE_REQUEST_DECLINED: a held access traps when it is next tried, a logged entry suspends its context (R61, R68). -/
def State.decline (s : State) (asid : Nat) (va : W64) : State :=
  let page := va.toNat / 4096
  let s := s.mapHolds (PageHold.on · asid fun a => a / 4096 == page) fun h => some { h with declined := true }
  let s := (s.cores.map (·.1)).foldl (fun (s : State) c => s.declineLees c asid page) s
  (s.dies.map (·.1)).foldl (fun (s : State) d => s.retryHeld d asid (some va)) s

/-- PAGE_REQUEST_DECLINED. -/
def execPageRequestDeclined (asid : Nat) (va : W64) (s : State) : Host.Outcome State Fault Refusal :=
  .next (s.decline asid va)

/-! ## Held releases (R69, R70) -/

/-- RELEASE_GO: the releases of a task whose older entries are all performed are performed, in the order they came. -/
def execReleaseGo (trid : Nat) (s : State) : Host.Outcome State Fault Refusal := .next (s.goAll trid)

/-! ## Shoot-down (R62 to R64) -/

/-- First byte of a command's range. -/
def shootLo (w0 : W64) : Nat := if bit w0 63 then 0 else fld w0 55 12 * 4096
/-- End of a command's range. -/
def shootHi (w0 w1 : W64) : Nat := if bit w0 63 then 2 ^ 64 else fld w0 55 12 * 4096 + max 1 (fld w1 41 10) * 4096

/-- Whether a command's range overlaps n bytes of an ASID (R63). -/
def shootHits (w0 w1 : W64) (asid lo n : Nat) (g : Bool) : Bool :=
  (asid == fld w1 9 0 || bit w0 62 || (g && bit w0 61)) && lo < shootHi w0 w1 && shootLo w0 < lo + n

/-- Whether a TLB entry matches. -/
def TlbEnt.shot (e : TlbEnt) (w0 w1 : W64) : Bool := shootHits w0 w1 e.asid e.vbase e.size e.global

/-- Whether a walk-cache entry matches: its key names ASID, level and index. -/
def walkShot (key : Nat) (w0 w1 : W64) : Bool :=
  let lvl := key / 2 ^ 57 % 8
  let size := 2 ^ (12 + 9 * lvl)
  shootHits w0 w1 (key / 2 ^ 60) (key % 2 ^ 57 * size) size false

/-- An extent cleared by a command: V := 0 until its task ends. -/
def Extent.shoot (x : Extent) (asid : Nat) (w0 w1 : W64) : Extent :=
  if shootHits w0 w1 asid (fld x.w0 55 12 * 4096) (fld x.w1 35 4 * 4096) false then { x with w1 := setFld x.w1 0 0 0 } else x

/-- A command for the whole space of an ASID, or of every ASID, puts the entries of the ASID table in force as they stand (R51). -/
def State.shootTable (s : State) (die : Nat) (w0 w1 : W64) : State :=
  if !bit w0 63 then s
  else if bit w0 62 then
    let base := (s.die die).asidBase
    let ent := fun i => (i, s.homeW (base + 16 * i), s.homeW (base + 16 * i + 8))
    s.updDie die fun d => { d with asidTab := ((List.range 1024).map ent).filter fun e => e.2 != (0, 0) }
  else s.loadAsid die (fld w1 9 0)

/-- Steps 1 to 3 of R63 on one die. Saved tasks lose their extents with the first die that takes the command. -/
def State.shoot (s : State) (die : Nat) (w0 w1 w2 : W64) : State :=
  let s := s.shootTable die w0 w1
  let ctx := fun (c : Ctx) => { c with extents := c.extents.map fun (x : Nat × Extent) => (x.1, x.2.shoot c.asid w0 w1) }
  let s : State := { s with
    cores := s.cores.map fun (k : Nat × Core) => if dieOf k.1 = die then
        (k.1, { k.2 with tlb := k.2.tlb.filter (fun e => !e.shot w0 w1)
                         ctxs := k.2.ctxs.map fun (c : Nat × Ctx) => (c.1, ctx c.2) })
      else k
    tasks := s.tasks.map fun (t : Nat × Task) => if t.2.saved then
        (t.1, { t.2 with extents := t.2.extents.map fun (x : Nat × Extent) => (x.1, x.2.shoot t.2.asid w0 w1) })
      else t }
  s.updDie die fun d =>
    { d with tlb := d.tlb.filter (fun e => !e.shot w0 w1)
             wcache := d.wcache.filter fun p => !walkShot p.1 w0 w1
             dtc := d.dtc.filter fun e => !e.shot w0 w1
             stc := d.stc.filter fun e => !e.shot w0 w1
             shoots := d.shoots ++ [⟨w0, w1, w2⟩] }

/-- SHOOTDOWN. -/
def execShootdown (die : Nat) (w0 w1 w2 : W64) (s : State) : Host.Outcome State Fault Refusal :=
  .next (s.shoot die w0 w1 w2)

/-- Whether a release, or a CFLUSH or CINV, that a die translated under a matching entry is still held (R63 step 4). Every other
access is performed when it is translated. -/
def State.shootBusy (s : State) (die : Nat) (x : Shoot) : Bool :=
  s.releases.any (fun r => dieOf r.core == die && shootHits x.w0 x.w1 r.asid r.x.ebase r.x.esize r.x.eglob) ||
  s.cacheOps.any fun o => dieOfClu o.clu == die &&
    shootHits x.w0 x.w1 (((tget? s.tasks o.trid).map (·.asid)).getD 0) o.x.ebase o.x.esize o.x.eglob

/-- SHOOTDOWN_COMPLETE: the die adds 1 at CPA (R63 step 5). -/
def State.shootEnd (s : State) (die : Nat) : State :=
  match (s.die die).shoots with
  | [] => s
  | x :: l =>
    if s.shootBusy die x then s
    else (s.updDie die fun d => { d with shoots := l }).physAdd (fld x.w2 51 3 * 8) 1

/-- SHOOTDOWN_COMPLETE. -/
def execShootdownComplete (die : Nat) (s : State) : Host.Outcome State Fault Refusal := .next (s.shootEnd die)

/-! ## Cask bookkeeping (R81, R85) -/

/-- CASKMISS_CLEAR: COUNT and FIRSTOFF become 0. -/
def State.missClear (s : State) (clu : Nat) : State :=
  s.updClu clu fun c => { c with missCnt := 0, missOff := 0, missAny := false }

/-- CASKMISS_CLEAR. -/
def execCaskmissClear (clu : Nat) (s : State) : Host.Outcome State Fault Refusal := .next (s.onBoot (s.missClear clu))

/-- ASID_RETIRE: the cask lines pinned for it are freed in every cluster (R85). -/
def State.retireAsid (s : State) (asid : Nat) : State :=
  { s with clus := s.clus.map fun c => (c.1, { c.2 with cask := c.2.cask.filter fun p => p.2.asid != asid }) }

/-- ASID_RETIRE. -/
def execAsidRetire (asid : Nat) (s : State) : Host.Outcome State Fault Refusal := .next (s.retireAsid asid)

end Sys2Proof.Machine
end

