-- ==== Sys2Proof/Machine/HostLink.lean ====
section
/-! DEFINITION. The host edge: device memory seen by the host, flips and holds of bias, snoops, host completions, and the link
going down and up (R384 to R398). -/

namespace Sys2Proof.Machine

open Sys2Proof

/-! ## Bias (R386 to R388) -/

/-- Changes the host link. -/
def State.updLink (s : State) (f : Link → Link) : State := { s with link := f s.link }

/-- An answer to the host; none completes the request as an Unsupported Request (R384). -/
def State.reply (s : State) (addr : Nat) (r : Option (List Byte)) : State :=
  s.updLink fun l => { l with replies := l.replies ++ [(addr, r)] }

/-- The host may hold its lines again, so that what its answers to snoops of them said is over (R387, R389). -/
def State.hostTook (s : State) (pa n : Nat) : State :=
  s.updLink fun l => { l with snoops := l.snoops.filter fun q => !(q.2.done && (linesOf pa n).contains q.1) }

/-- Performs a host request at the home slices: a read's bytes go back, a write is made (R389). -/
def State.hostDo (s : State) (pa : Nat) : HostReq → State
  | .read n => (s.hostTook pa n).reply pa (some (s.homeRead pa n))
  | .write bs => (s.hostTook pa bs.length).homeWrite 0 pa bs
  | _ => s

/-- A host request that nothing holds back: a page in device bias flips to host bias first and keeps it for 4,096 cycles (R387,
R388). -/
def State.hostNow (s : State) (pa : Nat) (r : HostReq) : State :=
  if s.hostBias pa || s.link.biasbase = 0 then s.hostDo pa r
  else
    ((s.setBias pa true).updLink fun l =>
      { l with fliph := satAdd 32 l.fliph 1, holds := tset l.holds (pa / 4096) (s.cycle + 4096) }).hostDo pa r

/-- Whether a page flips to device bias, or has just done so for a device access that is still to be performed (R388). -/
def State.pageBusy (s : State) (page : Nat) : Bool := (tget? s.link.flips page).isSome || (tget? s.link.grants page).isSome

/-- A host request to device memory: it waits while the page flips to device bias, until the access that the flip was for is
performed, and behind the requests to the page that wait (R388). -/
def State.hostRequest (s : State) (pa : Nat) (r : HostReq) : State :=
  if s.pageBusy (pa / 4096) || s.link.waiting.any (fun p => p.1 / 4096 == pa / 4096) then
    s.updLink fun l => { l with waiting := l.waiting ++ [(pa, r)] }
  else s.hostNow pa r

/-- Cycles for which a page that has flipped to device bias waits for the device access that caused the flip (log 25). -/
def grantCycles : Nat := 4096

/-- The host's requests that wait and whose page flips no more are performed, in the order they came (R388). -/
def State.hostTurn (s : State) : State :=
  let s := s.updLink fun l => { l with grants := l.grants.filter fun g => s.cycle < g.2 + grantCycles }
  let w := s.link.waiting.filter fun p => !s.pageBusy (p.1 / 4096)
  let s := s.updLink fun l => { l with waiting := l.waiting.filter fun p => s.pageBusy (p.1 / 4096) }
  w.foldl (fun (s : State) p => s.hostNow p.1 p.2) s

/-- A host access of device memory over CXL.mem: a host address HDMBASE + p reaches device physical address p below 768 GiB; any other
is an Unsupported Request (R384, R386). -/
def State.hdmAccess (s : State) (addr : Nat) (r : HostReq) : State :=
  if !s.coherentHost || addr < s.link.hdmbase || !isHbm (addr - s.link.hdmbase) then s.reply addr none
  else s.hostRequest (addr - s.link.hdmbase) r

/-- A byte of an interface's BAR0: its VICFG from 0x1000, and 0 elsewhere (R385, R394). -/
def State.bar0Byte (s : State) (vi a : Nat) : Byte :=
  if 0x1000 ≤ a && a < 0x1040 then
    BitVec.ofNat 8 ((s.readReg (.vicfg vi ((a - 0x1000) / 8))).toNat >>> (8 * (a % 8)))
  else 0

/-- A write of a doubleword of an interface's BAR0: the doorbell of queue q lies at 8q, and nothing else takes one (R353, R385). -/
def State.bar0Put (s : State) (vi a : Nat) (w : W64) : State :=
  if a < 0x1000 && a % 8 = 0 then s.doorbell vi (a / 8) w else s

/-- What the host asks for over the link (R384 to R386): BAR2 maps the device-register frames. -/
def State.hdmRequest (s : State) (addr : Nat) : HostReq → State
  | .read n => s.hdmAccess addr (.read n)
  | .write bs => s.hdmAccess addr (.write bs)
  | .setHdmbase => s.updLink fun l => { l with hdmbase := addr }
  | .bar0Read vi n => s.reply addr (some ((List.range n).map fun i => s.bar0Byte vi (addr + i)))
  | .bar0Write vi w => s.bar0Put vi addr w
  | .bar2Read n => if addr < 2 ^ 32 then s.reply addr (some (s.devRead (0x8000000000000 + addr) n)) else s.reply addr none
  | .bar2Write bs => if addr < 2 ^ 32 then s.frameWrite true (0x8000000000000 + addr) bs else s.reply addr none
  | .unsupported => s.reply addr none

/-- HOST_HDM_REQUEST. -/
def execHostHdmRequest (addr : Nat) (r : HostReq) (s : State) : Host.Outcome State Fault Refusal :=
  .next (s.hdmRequest addr r)

/-- The end of a flip to device bias: the bit is written, and the device access that caused it comes before the host's requests that
wait (R388, Table 17-5). -/
def State.flipEnd (s : State) (page : Nat) : State :=
  (s.setBias (page * 4096) false).updLink fun l =>
    { l with flips := tdel l.flips page, flipd := satAdd 32 l.flipd 1, grants := tset l.grants page s.cycle }

/-- BISNP_RESPONSE: the dirty data of a line is merged; it answers a snoop of the line alone, or is one of the 32 of a flip
(R387, R388). -/
def State.biSnp (s : State) (pa : Nat) (dirty : List Byte) : State :=
  let line := pa / 128
  let page := pa / 4096
  let merged := s.homeWrite 0 (line * 128) (dirty.take 128)
  match tget? s.link.snoops line with
  | some ⟨inv, false⟩ => merged.updLink fun l => { l with snoops := tset l.snoops line ⟨inv, true⟩ }
  | _ => match tget? s.link.flips page with
    | none => s
    | some n =>
      if n ≤ 1 then merged.flipEnd page else merged.updLink fun l => { l with flips := tset l.flips page (n - 1) }

/-- BISNP_RESPONSE. -/
def execBisnpResponse (pa : Nat) (dirty : List Byte) (s : State) : Host.Outcome State Fault Refusal := .next (s.biSnp pa dirty)

/-- BIAS_HOLD_EXPIRY: a hold of 4,096 cycles that is over ends (R387). -/
def State.holdExpiry (s : State) (page : Nat) : State :=
  match tget? s.link.holds page with
  | none => s
  | some t => if t ≤ s.cycle then s.updLink fun l => { l with holds := tdel l.holds page } else s

/-- BIAS_HOLD_EXPIRY. -/
def execBiasHoldExpiry (page : Nat) (s : State) : Host.Outcome State Fault Refusal := .next (s.holdExpiry page)

/-! ## Host-homed lines (R384, R390, R398) -/

/-- What becomes of a copy that the host's snoop finds: the host takes its dirty bytes; the host's read leaves it shared, an invalidation
and a store of the host drop it (R390). -/
def State.snoopCopy (s : State) (line : Nat) (k : Snoop) : State :=
  let s := s.hostBack line (k != .data)
  match tget? s.l2 line with
  | none => s
  | some l => { s with l2 := tset s.l2 line { l with own := false } }

/-- HOST_SNOOP: the home slice answers from the copy that it holds, and has none to answer from otherwise; the host's store of its own
memory stands at the host after it (R390). -/
def State.hostSnooped (s : State) (line : Nat) (k : Snoop) : State :=
  if !isHostHomed (line * 128) then s
  else
    let s := if (tget? s.l2 line).isNone then s
      else (s.reply (line * 128) (some (s.homeRead (line * 128) 128))).snoopCopy line k
    match k with
    | .store off bs => { s with mem := mwrite s.mem (line * 128 + off) bs }
    | _ => s

/-- HOST_SNOOP. -/
def execHostSnoop (line : Nat) (k : Snoop) (s : State) : Host.Outcome State Fault Refusal := .next (s.hostSnooped line k)

/-- HOST_COMPLETION: one that succeeds changes nothing, since the access is performed when it issues; a failed one is the end of the
context's next access of its kind at the address, which traps HOSTLINK as its class does and is not performed (R384, R398, log 39). -/
def State.hostCpl (s : State) (w : At) (va : W64) (store : Bool) (c : HostCpl) : State :=
  if c == .ok || (s.ctx w).trid.isNone || (s.ctx w).sched.run == .idle then s
  else s.updLink fun l => { l with fails := l.fails ++ [⟨w.core, w.ctx, va, store⟩] }

/-- HOST_COMPLETION. -/
def execHostCompletion (core ctx : Nat) (va : W64) (store : Bool) (c : HostCpl) (s : State) :
    Host.Outcome State Fault Refusal := .next (s.hostCpl ⟨core, ctx⟩ va store c)

/-! ## The link (R393, R397, R398) -/

/-- Writes one entry of 160 bytes to the orphan journal, or counts it in LOST (R397). -/
def State.journal (s : State) (w0 : W64) (mask : BitVec 128) (data : List Byte) : State :=
  let base := fld s.link.orphbase 63 12 * 4096
  let n := 2 ^ min 20 (fld s.link.orphbase 11 0)
  if n ≤ s.link.head then s.updLink fun l => { l with lost := satAdd 32 l.lost 1 }
  else
    let e := toBytes 8 w0.toNat ++ toBytes 16 mask.toNat ++ toBytes 8 0 ++ data
    (s.homeWrite 0 (base + 160 * s.link.head) e).updLink fun l => { l with head := l.head + 1 }

/-- Journals the dirty host-homed lines, which leave their slices with their scope records before any entry is written: none goes to the
host for the room of an entry (R397, R339). -/
def State.orphanLines (s : State) : State :=
  let lost := s.l2.filter fun p => isHostHomed (p.1 * 128) && p.2.dirty != 0
  let gone := fun (i : Nat) => lost.any fun p => p.1 == i
  let s : State := { s with l2 := s.l2.filter (fun p => !gone p.1), homeRec := s.homeRec.filter fun p => !gone p.1 }
  lost.foldl (fun (s : State) (p : Nat × L2Line) =>
    s.journal (BitVec.ofNat 64 (p.1 * 128 - 0xC000000000000)) p.2.dirty ((List.range 128).map fun i => lineByte p.2.data i)) s

/-- Journals the pages in host bias and sets their bits to 0 (R397). -/
def State.orphanPages (s : State) : State :=
  let b := s.link.biasbase.toNat
  if b = 0 then s
  else
    let cells := s.mem.filter fun c => b ≤ c.1 && c.1 < b + 24 * 2 ^ 20
    cells.foldl (fun (s : State) (c : Nat × Byte) =>
      ((List.range 8).filter fun i => c.2.getLsbD i).foldl (fun (s : State) i =>
        let pa := ((c.1 - b) * 8 + i) * 4096
        (s.setBias pa false).journal (BitVec.ofNat 64 (2 ^ 63 + pa)) 0 (List.replicate 128 0)) s) s

/-- LINK_DOWN: FENCED and DOWNSEEN are set, dirty lines and pages in host bias are journalled (R397). -/
def State.linkLost (s : State) : State :=
  if !s.link.up then s
  else
    let s := s.updLink fun l => { l with up := false, fenced := true, downseen := true }
    (s.orphanLines.orphanPages).updLink fun l => 
      { l with flips := [], grants := [], holds := [], snoops := [], waiting := [], fails := [] }

/-- LINK_DOWN. -/
def execLinkDown (s : State) : Host.Outcome State Fault Refusal := .next s.linkLost

/-- HLCTL_REARM: while UP, FENCED is cleared; the journal's HEAD counts from here (Table 17-3). -/
def State.rearm (s : State) : State :=
  if s.link.up then s.updLink fun l => { l with fenced := false, head := 0 } else s

/-- HLCTL_REARM. -/
def execHlctlRearm (s : State) : Host.Outcome State Fault Refusal := .next (s.onBoot s.rearm)

/-- HOST_LINK_UP. -/
def execHostLinkUp (cxl : Bool) (s : State) : Host.Outcome State Fault Refusal :=
  .next (s.updLink fun l => { l with up := true, cxl := cxl })

end Sys2Proof.Machine
end

