-- ==== Sys2Proof/Machine/TransportCore.lean ====
section
/-! DEFINITION. The transport core: its instructions, its control, faults, timers and mail (R154 to R159, R162, R165 to
R178). -/

namespace Sys2Proof.Machine

open Sys2Proof

/-! ## Registers, faults and control (R154 to R159) -/

/-- Register t; t0 reads 0 (Table 07-1). -/
def Tc.get (t : Tc) (r : R5) : W64 := if r = 0 then 0 else tget 0 t.t r.toNat

/-- Writes a register; t0 discards. -/
def Tc.put (t : Tc) (r : R5) (v : W64) : Tc := if r = 0 then t else { t with t := tset t.t r.toNat v }

/-- The transport core that issues: that of the focus, while it runs (log 1). -/
def State.tcCur (s : State) : Option Nat :=
  match s.focus with
  | .tc d => if (s.die d).tc.state = 1 then some d else none
  | .core _ => none

/-- A fault (R158): the core stops, the firmware is told, and what waits takes its default (R159, R164). -/
def State.tcFault (s : State) (d cause : Nat) : State :=
  let s := s.updTc d fun t => { t with state := 3, cause := cause, statPc := t.pc }
  (s.mail d 3 [BitVec.ofNat 64 cause]).settleAll d

/-- Goes to the next instruction; past word 16,383 the fetch faults IMEM (R158). -/
def State.tcNext (s : State) (d : Nat) : State :=
  if (s.die d).tc.pc = 16383 then s.tcFault d 2 else s.updTc d fun t => { t with pc := t.pc + 1 }

/-- Goes to a target, or faults IMEM at the branching instruction (R158, R172); the core is busy for one cycle more (R155).
In that cycle nothing issues, and TCSTAT.PC shows the next instruction's PC, the model's choice (log 63). -/
def State.tcJump (s : State) (d : Nat) (target : Int) (f : State → State) : State :=
  if target < 0 || 16383 < target then s.tcFault d 2
  else (f s).updTc d fun t => { t with pc := BitVec.ofNat 14 target.toNat, busy := 1 }

/-- An instruction of the core that issues, which goes on to the next. -/
def tcOp (s : State) (f : Nat → State → State) : Host.Outcome State Fault Refusal :=
  match s.tcCur with
  | none => .next s
  | some d => .next ((f d s).tcNext d)

/-- An instruction that may fault before it has any effect. -/
def tcTry (s : State) (f : Nat → State → Except Nat State) : Host.Outcome State Fault Refusal :=
  match s.tcCur with
  | none => .next s
  | some d => match f d s with
    | .error cause => .next (s.tcFault d cause)
    | .ok s' => .next (s'.tcNext d)

/-- An instruction that writes td with a value of the registers. -/
def tcAlu (s : State) (d : R5) (v : Tc → W64) : Host.Outcome State Fault Refusal :=
  tcOp s fun die s => s.updTc die fun t => t.put d (v t)

/-- A branch on a comparison of two registers. -/
def tcIf (s : State) (a b : R5) (off : BitVec 16) (holds : W64 → W64 → Bool) : Host.Outcome State Fault Refusal :=
  match s.tcCur with
  | none => .next s
  | some d =>
    let t := (s.die d).tc
    if holds (t.get a) (t.get b) then .next (s.tcJump d ((t.pc.toNat : Int) + off.toInt) id) else .next (s.tcNext d)

/-! ## State memory and the current event (R170, R171) -/

/-- An address of LDS or STS; none when it faults SMEM. -/
def tcAddr (t : Tc) (a : R5) (imm : BitVec 16) : Option Nat :=
  let x := (t.get a + imm.signExtend 64).toNat
  if x % 8 != 0 || 0x40000 ≤ x then none else some (x / 8)

/-- Word n of the current record. -/
def Tc.eventWord (t : Tc) (n : Nat) : W64 :=
  match t.cur with
  | none => 0
  | some e => match n with
    | 0 => e.w0 | 1 => e.w1 | 2 => e.w2 | 3 => e.w3 | _ => 0

/-- The held packet of an event. -/
def TcEvent.packet (e : TcEvent) : Option Packet :=
  match e.held with
  | some p => some p
  | none => e.hdr.map (·.pkt)

/-- Word n of a packet (R171). -/
def pkWord (p : Packet) (n : Nat) : W64 :=
  match n with
  | 0 => p.w0 | 1 => p.w1 | 2 => p.w2 | 3 => p.w3
  | _ => if 515 < n then 0 else w64 ((List.range 8).map fun i => (pkBytes p).getD (8 * (n - 4) + i) 0)

/-- Replaces word n of a packet; bytes past PLEN are discarded (R171). -/
def pkSet (p : Packet) (n : Nat) (v : W64) : Packet :=
  match n with
  | 0 => { p with w0 := v } | 1 => { p with w1 := v } | 2 => { p with w2 := v } | 3 => { p with w3 := v }
  | _ =>
    if 515 < n then p
    else
      let bs := toBytes 8 v.toNat
      { p with payload := (pkBytes p).zipIdx.map fun q =>
          if 8 * (n - 4) ≤ q.2 && q.2 < 8 * (n - 4) + 8 then bs.getD (q.2 - 8 * (n - 4)) 0 else q.1 }

/-- Replaces a word of the held packet of an event. -/
def TcEvent.setWord (e : TcEvent) (n : Nat) (v : W64) : TcEvent :=
  match e.held with
  | some p => { e with held := some (pkSet p n v) }
  | none =>
    let put := fun (h : MsgHdr) =>
      let q := pkSet h.pkt n v
      ({ h with pkt := { q with payload := q.payload ++ h.pkt.payload.drop q.payload.length } } : MsgHdr)
    { e with hdr := e.hdr.map put }

/-- Marks the current event answered (R164). -/
def State.answered (s : State) (d : Nat) : State := s.updTc d fun t => { t with answered := true }

/-- Takes the held packet from the current event. -/
def State.dropHeld (s : State) (d : Nat) : State :=
  s.updTc d fun t => { t with cur := t.cur.map fun e => { e with held := none, hdr := none } }

/-- Answers the held packet as `pk` and `hd` say; td says whether there was one (R174). -/
def State.tcAnswer (s : State) (d : Nat) (td : R5) (pk : State → Packet → State) (hd : State → MsgHdr → State) : State :=
  let none' := (s.answered d).updTc d fun t => t.put td 0
  match (s.die d).tc.cur with
  | none => none'
  | some e =>
    let s1 := ((s.answered d).dropHeld d).updTc d fun t => t.put td 1
    match e.held, e.hdr with
    | some p, _ => pk s1 p
    | none, some h => hd s1 h
    | none, none => none'

/-! ## Meanings: ALU and immediates (R168, R169) -/

/-- ADD. -/
def execTcAdd (d a b : R5) (s : State) := tcAlu s d fun t => t.get a + t.get b
/-- SUB. -/
def execTcSub (d a b : R5) (s : State) := tcAlu s d fun t => t.get a - t.get b
/-- AND. -/
def execTcAnd (d a b : R5) (s : State) := tcAlu s d fun t => t.get a &&& t.get b
/-- OR. -/
def execTcOr (d a b : R5) (s : State) := tcAlu s d fun t => t.get a ||| t.get b
/-- XOR. -/
def execTcXor (d a b : R5) (s : State) := tcAlu s d fun t => t.get a ^^^ t.get b
/-- SHL. -/
def execTcShl (d a b : R5) (s : State) := tcAlu s d fun t => t.get a <<< ((t.get b).toNat % 64)
/-- SHR. -/
def execTcShr (d a b : R5) (s : State) := tcAlu s d fun t => t.get a >>> ((t.get b).toNat % 64)
/-- SLTU. -/
def execTcSltu (d a b : R5) (s : State) := tcAlu s d fun t => truth (Nat.blt (t.get a).toNat (t.get b).toNat)
/-- ADDI. -/
def execTcAddi (d a : R5) (imm : BitVec 16) (s : State) := tcAlu s d fun t => t.get a + imm.signExtend 64
/-- ANDI. -/
def execTcAndi (d a : R5) (imm : BitVec 16) (s : State) := tcAlu s d fun t => t.get a &&& imm.setWidth 64
/-- SHLI. -/
def execTcShli (d a : R5) (sh : BitVec 6) (s : State) := tcAlu s d fun t => t.get a <<< sh.toNat
/-- SHRI. -/
def execTcShri (d a : R5) (sh : BitVec 6) (s : State) := tcAlu s d fun t => t.get a >>> sh.toNat
/-- LI. -/
def execTcLi (d : R5) (imm : BitVec 16) (s : State) := tcAlu s d fun _ => imm.signExtend 64
/-- LIS. -/
def execTcLis (d : R5) (imm : BitVec 16) (s : State) := tcAlu s d fun t => (t.get d <<< 16) ||| imm.setWidth 64

/-! ## Meanings: state memory, events and packets (R170, R171) -/

/-- LDS, which occupies a second cycle (R155). -/
def execTcLds (d a : R5) (imm : BitVec 16) (s : State) := tcTry s fun die s =>
  match tcAddr (s.die die).tc a imm with
  | none => .error 3
  | some n => .ok (s.updTc die fun t => { t.put d (tget 0 t.smem n) with busy := 1 })
/-- STS. -/
def execTcSts (d a : R5) (imm : BitVec 16) (s : State) := tcTry s fun die s =>
  match tcAddr (s.die die).tc a imm with
  | none => .error 3
  | some n => .ok (s.updTc die fun t => { t with smem := tset t.smem n (t.get d) })
/-- LDE. -/
def execTcLde (d : R5) (imm : BitVec 16) (s : State) := tcAlu s d fun t => t.eventWord imm.toNat
/-- LDP. -/
def execTcLdp (d : R5) (imm : BitVec 16) (s : State) := tcAlu s d fun t =>
  match t.cur.bind TcEvent.packet with
  | some p => pkWord p imm.toNat
  | none => 0
/-- STP. -/
def execTcStp (d : R5) (imm : BitVec 16) (s : State) := tcOp s fun die s =>
  s.updTc die fun t => { t with cur := t.cur.map fun e => e.setWord imm.toNat (t.get d) }

/-! ## Meanings: branches (R172) -/

/-- BEQ. -/
def execTcBeq (a b : R5) (off : BitVec 16) (s : State) := tcIf s a b off fun x y => x == y
/-- BNE. -/
def execTcBne (a b : R5) (off : BitVec 16) (s : State) := tcIf s a b off fun x y => x != y
/-- BLTU. -/
def execTcBltu (a b : R5) (off : BitVec 16) (s : State) := tcIf s a b off fun x y => Nat.blt x.toNat y.toNat
/-- JMP. -/
def execTcJmp (off : BitVec 26) (s : State) : Host.Outcome State Fault Refusal :=
  match s.tcCur with
  | none => .next s
  | some d => .next (s.tcJump d (((s.die d).tc.pc.toNat : Int) + off.toInt) id)
/-- CALL. -/
def execTcCall (off : BitVec 26) (s : State) : Host.Outcome State Fault Refusal :=
  match s.tcCur with
  | none => .next s
  | some d => .next (s.tcJump d (((s.die d).tc.pc.toNat : Int) + off.toInt) fun s =>
      s.updTc d fun t => t.put 31 (BitVec.ofNat 64 (t.pc.toNat + 1)))
/-- RET. -/
def execTcRet (s : State) : Host.Outcome State Fault Refusal :=
  match s.tcCur with
  | none => .next s
  | some d => .next (s.tcJump d ((s.die d).tc.get 31).toNat id)

/-! ## Meanings: events and the transport's operations (R173 to R178) -/

/-- WAITE: an unanswered event takes its default; the core waits while the queue is empty. -/
def execTcWaite (d : R5) (s : State) : Host.Outcome State Fault Refusal :=
  match s.tcCur with
  | none => .next s
  | some die =>
    let s := (s.settleCur die).dropHeld die
    match (s.die die).tc.queue with
    | [] => .next s
    | e :: l => .next ((s.updTc die fun t =>
        { t with queue := l, cur := some e, answered := false, heldAt := s.cycle }.put d
          (BitVec.ofNat 64 (fld e.w0 63 59))).tcNext die)

/-- RESEND. -/
def execTcResend (d a b : R5) (s : State) := tcOp s fun die s =>
  let t := (s.die die).tc
  let fid := (t.cur.map (·.flow)).getD 0
  let r := s.resend die fid (t.get a).toNat (min 256 (t.get b).toNat)
  (r.2.answered die).updTc die fun t => t.put d (BitVec.ofNat 64 r.1)

/-- ACK. -/
def execTcAck (d : R5) (apply : Bool) (s : State) := tcOp s fun die s =>
  s.tcAnswer die d (fun s p => if apply then s.applyHeld die p else s.accept die p) fun s h =>
    if apply then s.applyHdr die h else s.takeHdr die h

/-- NACK. -/
def execTcNack (d : R5) (noTarget : Bool) (s : State) := tcOp s fun die s =>
  s.tcAnswer die d (fun s p => if noTarget then s.refuseIt die p else s.retryIt die p) fun s h =>
    if noTarget then s.passHdr die h 2 else s.answerHdr die h 1

/-- SETPATH. -/
def execTcSetpath (a b : R5) (s : State) := tcTry s fun die s =>
  let t := (s.die die).tc
  let p := (t.get a).toNat
  let v := t.get b
  if 8192 ≤ p || fld v 42 16 != 0 || fld v 14 10 != 0 || (bit v 15 && 17 < fld v 47 43) then .error 4
  else .ok ((s.setPath die p v).answered die)

/-- PATHDOWN. -/
def execTcPathdown (a b : R5) (s : State) := tcTry s fun die s =>
  let t := (s.die die).tc
  let p := (t.get a).toNat
  let i := (t.get b).toNat
  if 8192 ≤ p || 64 ≤ i then .error 4 else .ok ((s.pathDown die p i).answered die)

/-- SETWIN. -/
def execTcSetwin (a b : R5) (s : State) := tcTry s fun die s =>
  let t := (s.die die).tc
  let p := (t.get a).toNat
  if 8192 ≤ p then .error 4 else .ok ((s.setWin die p (t.get b)).answered die)

/-- TMARM. -/
def execTcTmarm (a b : R5) (s : State) := tcTry s fun die s =>
  let t := (s.die die).tc
  let n := (t.get a).toNat
  if 256 ≤ n then .error 4
  else .ok (s.updTc die fun t => { t with timers := tset t.timers n (s.cycle + max 1 ((t.get b).toNat % 2 ^ 32)) })

/-- TMCAN. -/
def execTcTmcan (d a : R5) (s : State) := tcTry s fun die s =>
  let t := (s.die die).tc
  let n := (t.get a).toNat
  if 256 ≤ n then .error 4
  else .ok (s.updTc die fun t => { t with timers := tdel t.timers n }.put d (truth (tget? t.timers n).isSome))

/-- POST. -/
def execTcPost (d a b : R5) (s : State) := tcTry s fun die s =>
  let t := (s.die die).tc
  let n := (t.get a).toNat
  let st := (t.get b).toNat
  if 2 ^ 24 ≤ n || !(st == 0 || st == 6 || st == 7) then .error 4
  else
    let r := if n = 0 then (false, s) else s.postOp die n st
    .ok ((r.2.answered die).updTc die fun t => t.put d (truth r.1))

/-- HALT (R157, R174). -/
def execTcHalt (s : State) : Host.Outcome State Fault Refusal :=
  match s.tcCur with
  | none => .next s
  | some d => .next ((s.updTc d fun t => { t with state := 2, statPc := t.pc }).settleAll d)

/-! ## Control, the watchdog, timers and mail (R157, R158, R162, R177) -/

/-- TC_START. CAUSE goes back to 0 (none) as the core runs, the model's choice: the spec says only when it is recorded (log 63). -/
def State.tcStartIt (s : State) (d : Nat) : State :=
  if (s.die d).tc.state = 1 then s else s.updTc d fun t => { t with state := 1, cause := 0, pc := t.start, busy := 0 }

/-- TC_STOP. -/
def State.tcStopIt (s : State) (d : Nat) : State :=
  if (s.die d).tc.state = 1 then (s.updTc d fun t => { t with state := 0, statPc := t.pc }).settleAll d else s

/-- TC_CLRREG: ignored while the core runs. -/
def State.tcClr (s : State) (d : Nat) : State :=
  if (s.die d).tc.state = 1 then s
  else (s.settleCur d).updTc d fun t => { t with t := [], cur := none }

/-- TC_WATCHDOG: a held packet unanswered for LIMIT cycles. -/
def State.tcDog (s : State) (d : Nat) : State :=
  let t := (s.die d).tc
  let held := (t.cur.bind TcEvent.packet).isSome
  if t.state = 1 && held && t.limit != 0 && Nat.ble (t.heldAt + t.limit) s.cycle then s.tcFault d 5 else s

/-- An event that names no flow and no packet: a timer's or a message's. -/
def plainEvent (kind : Nat) (w2 w3 : W64) : TcEvent :=
  { flow := 0, peer := 0x1FFF, w0 := evW0 kind false 31 63 0x1FFF, w1 := 0, w2 := w2, w3 := w3, held := none, hdr := none }

/-- TC_TIMER_EXPIRY. -/
def State.tcTimer (s : State) (d n : Nat) : State :=
  match tget? (s.die d).tc.timers n with
  | none => s
  | some t =>
    if t ≤ s.cycle then
      (s.updTc d fun t => { t with timers := tdel t.timers n }).raise d (plainEvent 9 (BitVec.ofNat 64 n) 0)
    else s

/-- TXDSTAT_CLR (R153, R157). -/
def State.txClr (s : State) (d : Nat) : State :=
  (s.updTx d fun t => { t with unsupp := 0, malform := 0, stale := 0, duptag := 0, overred := 0, mcdegr := 0 }).updTc d
    fun t => { t with evlost := 0, defaults := 0 }

/-- TC_START. -/
def execTcStart (die : Nat) (s : State) : Host.Outcome State Fault Refusal := .next (s.onBoot (s.tcStartIt die))
/-- TC_STOP. -/
def execTcStop (die : Nat) (s : State) : Host.Outcome State Fault Refusal := .next (s.onBoot (s.tcStopIt die))
/-- TC_CLRREG. -/
def execTcClrreg (die : Nat) (s : State) : Host.Outcome State Fault Refusal := .next (s.onBoot (s.tcClr die))
/-- TC_WATCHDOG. -/
def execTcWatchdog (die : Nat) (s : State) : Host.Outcome State Fault Refusal := .next (s.tcDog die)
/-- TC_TIMER_EXPIRY. -/
def execTcTimerExpiry (die t : Nat) (s : State) : Host.Outcome State Fault Refusal := .next (s.tcTimer die t)
/-- TC_MAIL. -/
def execTcMail (die : Nat) (w0 w1 : W64) (s : State) : Host.Outcome State Fault Refusal :=
  .next (s.raise die (plainEvent 10 w0 w1))
/-- TXDSTAT_CLR. -/
def execTxdstatClr (die : Nat) (s : State) : Host.Outcome State Fault Refusal := .next (s.onBoot (s.txClr die))

end Sys2Proof.Machine
end

