-- ==== Sys2Proof/Machine/Dependability.lean ====
section
/-! DEFINITION. Detected errors by unit, press self-checks, and spares of HBM (R399 to R404, R407). -/

namespace Sys2Proof.Machine

open Sys2Proof

/-! ## Error records (R401, R407) -/

/-- What an error record names: unit, uncorrectable, dirty, ASID, core and context, address and detail (Table 18-2). -/
structure ErrInfo where
  unit   : Nat
  uc     : Bool
  dirty  : Bool
  asid   : Nat
  core   : Option Nat
  ctx    : Nat
  addr   : W64
  detail : W64

/-- Posts an error record to the firmware, or counts it in ERRLOST where the mailbox ring is full (R401: whether it is full is a free
value), and counts the error for its unit. -/
def State.errRecord (s : State) (die : Nat) (e : ErrInfo) : State :=
  let seq := (s.die die).errseq
  let w0 := mkW [(e.unit, 56), (e.uc.toNat, 55), (e.dirty.toNat, 54), (e.asid % 1024, 44),
    ((e.core.getD 0x1FF) % 512, 34), (e.ctx % 4, 32), (seq % 2 ^ 32, 0)]
  let n := s.fresh
  let s := ({ s with fresh := n + 1 } : State).updDie die fun d =>
    { d with errseq := d.errseq + 1, errcnt := tset d.errcnt e.unit (satAdd 64 (tget 0 d.errcnt e.unit) 1) }
  if Config.mailFull n then s.updDie die fun d => { d with errlost := satAdd 32 d.errlost 1 }
  else s.mail die 1 [w0, e.addr, BitVec.ofNat 64 s.cycle, e.detail]

/-! ## Uncorrectable errors (R399, R400) -/

/-- An ECC trap of a context that holds a task: deferred, with the unit in CODE (R374, R377). -/
def State.eccTrap (s : State) (w : At) (unit : Nat) (addr : W64) : State :=
  if (s.ctx w).trid.isNone then s
  else s.addDeferred w { trapDeferred 21 0 0 addr false none with code := unit }

/-- An error in a dirty line: every context of the ASID is suspended, running or saved, and the queues that launched a task
with it are halted with TASKFAULT (R400). -/
def State.asidFault (s : State) (asid unit : Nat) (addr : W64) : State :=
  let s := s.allCtxs.foldl (fun (s : State) p => if p.2.asid = asid then s.eccTrap p.1 unit addr else s) s
  let s := s.tasks.foldl (fun (s : State) (t : Nat × Task) =>
    if t.2.asid != asid then s
    else
      let s := if t.2.saved then s.updTask t.1 fun x => { x with ecc := true } else s
      s.queueFault t.2) s
  (s.queues.filter fun q => q.2.launched && fld (s.qcbW q.1 1) 57 48 == asid).foldl (fun (s : State) q => s.qHalt q.1 2) s

/-- The dirty copy of a line in an L1 data cache of a cluster. -/
def State.ownerL1 (s : State) (clu line : Nat) : Option L1Line :=
  (s.coresOf clu).findSome? fun c => match tget? (s.core c).l1 line with
    | some x => if x.dirty = 0 then none else some x
    | none => none

/-- Whether a dirty byte of the cluster's line is dirty only in an L1 copy. -/
def onlyL1 (x : Option L1Line) (i : Nat) : Bool :=
  match x with
  | some l => l.dirty.getLsbD i && !l.udirty.getLsbD i
  | none => false

/-- Drops a core's dirty L1 copy: the bytes that the cluster cache holds beneath it stand. -/
def State.loseL1 (s : State) (core line : Nat) (x : L1Line) : State :=
  let clu := clusterOf core
  let s := s.updCore core fun k => { k with l1 := tdel k.l1 line }
  match tget? (s.clu clu).cc line with
  | none => s
  | some l =>
    let bits := (List.range 128).filter fun i => x.dirty.getLsbD i
    let data := bits.foldl (fun d i => lineSet d i (lineByte x.under i)) l.data
    s.updClu clu fun c => { c with cc := tset c.cc line { l with data := data, dirty := (l.dirty &&& ~~~x.dirty) ||| (x.udirty &&& x.dirty) } }

/-- Drops a cluster's dirty line: bytes that an L1 copy alone holds are written home, the rest are lost. -/
def State.loseCc (s : State) (clu line : Nat) (l : CcLine) : State :=
  let x := s.ownerL1 clu line
  let keep := ((List.range 128).filter fun i => onlyL1 x i).map fun i => (line * 128 + i, lineByte l.data i)
  let s := keep.foldl (fun (s : State) (p : Nat × Byte) => s.homePut l.asid p.1 p.2) s
  let s := s.updClu clu fun c => { c with cc := tdel c.cc line }
  s.updCluCores clu fun _ k => { k with l1 := tdel k.l1 line }

/-- Refetches the bytes of a cluster's clean line that no L1 copy has changed. -/
def State.refetch (s : State) (clu line : Nat) (l : CcLine) : State :=
  let x := s.ownerL1 clu line
  let data := lineOf fun i => if onlyL1 x i then lineByte l.data i else s.homeByte (line * 128 + i)
  s.updClu clu fun c => { c with cc := tset c.cc line { l with data := data } }

/-- Drops a line that a home slice holds dirty: what HBM or the host holds stands. -/
def State.loseL2 (s : State) (line : Nat) (l : L2Line) : State :=
  let s : State := { s with l2 := tdel s.l2 line }
  if isHostHomed (line * 128) then s
  else (dirtyBytes line l.data l.dirty).foldl (fun (s : State) (p : Nat × Byte) => { s with mem := mset s.mem p.1 p.2 }) s

/-- The 64 bytes of HBM around an address hold zeros (R400): bytes that the L2 holds dirty stand above them. -/
def State.zeroHbm (s : State) (pa : Nat) (l : Option L2Line) : State :=
  (List.range 64).foldl (fun (s : State) i =>
    let a := pa / 64 * 64 + i
    match l with
    | some x => if x.dirty.getLsbD (a % 128) then
        match tget? s.l2 (pa / 128) with
        | some y => { s with l2 := tset s.l2 (pa / 128) { y with data := lineSet y.data (a % 128) 0 } }
        | none => s
      else { s with mem := mset s.mem a 0 }
    | none => { s with mem := mset s.mem a 0 }) s

/-- A physical address as a word. -/
def addrOf (line : Nat) : W64 := BitVec.ofNat 64 (line * 128)

/-- The number of press p of a core (R12). -/
def pressNo (core p : Nat) : Nat := (2 * core + p) % 2048

/-- What the record of an error says, and the die that posts it. -/
def State.errInfo (s : State) (uc : Bool) (syn : W64) (site : EccSite) : Nat × ErrInfo :=
  let info := fun (unit : Nat) (dirty : Bool) (asid : Nat) (core : Option Nat) (ctx : Nat) (addr : W64) =>
    (⟨unit, uc, dirty, asid, core, ctx, addr, syn⟩ : ErrInfo)
  match site with
  | .regfile c x => (dieOf c, info 1 false 0 (some c) x 0)
  | .buffer c x sp off => (dieOf c, info 2 false 0 (some c) x (bufWord sp c off))
  | .l1d c l => match tget? (s.core c).l1 l with
    | some x => (dieOf c, info 3 (x.dirty != 0) (if x.dirty = 0 then 0 else x.asid) (some c) 0 (addrOf l))
    | none => (dieOf c, info 3 false 0 (some c) 0 (addrOf l))
  | .l1i c l => (dieOf c, info 4 false 0 (some c) 0 (addrOf l))
  | .ibuf c x a => (dieOf c, info 4 false 0 (some c) x (BitVec.ofNat 64 (((s.codeXlate ⟨c, x⟩ (BitVec.ofNat 64 a)).toOption.map (·.pa)).getD 0)))
  | .cluster u l => match tget? (s.clu u).cc l with
    | some x =>
      let own := (List.range 128).any fun i => x.dirty.getLsbD i && !onlyL1 (s.ownerL1 u l) i
      (dieOfClu u, info 5 own (if own then x.asid else 0) none 0 (addrOf l))
    | none => (dieOfClu u, info 5 false 0 none 0 (addrOf l))
  | .cask u l => match tget? (s.clu u).cask l with
    | some x => (dieOfClu u, info 5 true x.asid none 0 0)
    | none => (dieOfClu u, info 5 false 0 none 0 0)
  | .l2 l => match tget? s.l2 l with
    | some x => (homeSlice (l * 128) / 160, info 6 (x.dirty != 0) (if x.dirty = 0 then 0 else x.asid) none 0 (addrOf l))
    | none => (homeSlice (l * 128) / 160, info 6 false 0 none 0 (addrOf l))
  | .hbm pa =>
    (hbmStack pa / 3, info 7 true (((tget? s.l2 (pa / 128)).map (·.asid)).getD 0) none 0 (BitVec.ofNat 64 pa))
  | .press c p x => (dieOf c, { info 8 false 0 (some c) x 0 with detail := BitVec.ofNat 64 (pressNo c p) })
  | .tlb c _ _ => (dieOf c, info 9 false 0 (some c) 0 0)
  | .dieTlb d _ _ => (d, info 9 false 0 none 0 0)
  | .unitTlb d _ _ => (d, info 9 false 0 none 0 0)
  | .walk d _ => (d, info 9 false 0 none 0 0)
  | .extent c x _ => (dieOf c, info 9 false 0 (some c) x 0)
  | .engine c x => (dieOf c, info 10 false 0 (some c) x 0)
  | .tcmem d _ => (d, info 11 false 0 none 0 0)

/-- The action of Table 18-1 on an uncorrectable error. -/
def State.uncorrected (s : State) (site : EccSite) : State :=
  match site with
  | .regfile c x => s.eccTrap ⟨c, x⟩ 1 0
  | .buffer c x sp off => s.eccTrap ⟨c, x⟩ 2 (bufWord sp c off)
  | .l1d c l => match tget? (s.core c).l1 l with
    | none => s
    | some x => if x.dirty = 0 then s.updCore c fun k => { k with l1 := tdel k.l1 l }
      else (s.loseL1 c l x).asidFault x.asid 3 (addrOf l)
  | .l1i c l => s.updCore c fun k => { k with l1i := tdel k.l1i l }
  | .ibuf c x a => s.updPipe ⟨c, x⟩ fun p => { p with ibuf := tdel p.ibuf a }
  | .cluster u l => match tget? (s.clu u).cc l with
    | none => s
    | some x =>
      if (List.range 128).any fun i => x.dirty.getLsbD i && !onlyL1 (s.ownerL1 u l) i then
        (s.loseCc u l x).asidFault x.asid 5 (addrOf l)
      else s.refetch u l x
  | .cask u l => match tget? (s.clu u).cask l with
    | none => s
    | some x =>
      (s.updClu u fun c => { c with cask := tset c.cask l { x with data := 0 } }).asidFault x.asid 5 0
  | .l2 l => match tget? s.l2 l with
    | none => s
    | some x => if x.dirty = 0 then { s with l2 := tdel s.l2 l } else (s.loseL2 l x).asidFault x.asid 6 (addrOf l)
  | .hbm pa => match tget? s.l2 (pa / 128) with
    | some x => (s.zeroHbm pa (some x)).asidFault x.asid 7 (BitVec.ofNat 64 pa)
    | none => s.zeroHbm pa none
  | .press c p x => (s.updPress c p fun q => { q with failed := true }).eccTrap ⟨c, x⟩ 8 0
  | .tlb c a v => s.updCore c fun k => { k with tlb := k.tlb.filter fun e => !e.hits a (v * 4096) }
  | .dieTlb d a v => s.updDie d fun k => { k with tlb := k.tlb.filter fun e => !e.hits a (v * 4096) }
  | .unitTlb d a v => s.updDie d fun k =>
      { k with dtc := k.dtc.filter (fun e => !e.hits a (v * 4096)), stc := k.stc.filter fun e => !e.hits a (v * 4096) }
  | .walk d key => s.updDie d fun k => { k with wcache := k.wcache.filter fun p => p.1 != key }
  | .extent c x n => s.updCtx ⟨c, x⟩ fun k => { k with extents := match tget? k.extents n with
      | some e => tset k.extents n { e with w1 := setFld e.w1 0 0 0 }
      | none => k.extents }
  | .engine c x => s.eccTrap ⟨c, x⟩ 10 0
  | .tcmem d st => s.tcFault d (if st then 3 else 2)

/-- ECC_ERROR_DETECTED: the record, the counter and, for an uncorrectable error, the action of its unit. A corrected error
changes nothing that a program sees. -/
def State.eccError (s : State) (site : EccSite) (uc : Bool) (syn : W64) : State :=
  let i := s.errInfo uc syn site
  let s := s.errRecord i.1 i.2
  if uc then s.uncorrected site else s

/-- ECC_ERROR_DETECTED. -/
def execEccErrorDetected (site : EccSite) (uc : Bool) (syndrome : W64) (s : State) : Host.Outcome State Fault Refusal :=
  .next (s.eccError site uc syndrome)

/-! ## Self-checks (R402) -/

/-- PRESS_SELF_CHECK: the press is busy for 264 cycles, and the next check is due 2²⁴ cycles on. A mismatch suspends every running
context that has issued to it since the last passing check, reports the tasks that have ended since, and marks the press failed. -/
def State.selfCheck (s : State) (core press : Nat) (pass : Bool) : State :=
  let x := (s.core core).pressOf press
  let s := s.updPress core press fun p =>
    { p with busyTo := s.cycle + 264, checkAt := (s.cycle / 2 ^ 24 + 1) * 2 ^ 24, failed := p.failed || !pass, issuers := if pass then [] else p.issuers }
  if pass then s
  else
    let die := dieOf core
    let s := s.errRecord die
      { unit := 8, uc := true, dirty := false, asid := 0, core := some core, ctx := 0, addr := 0,
        detail := mkW [(1, 63), (pressNo core press, 0)] }
    x.issuers.foldl (fun (s : State) t =>
      if t.2 then s.mail die 3 [BitVec.ofNat 64 t.1, mkW [(1, 63), (pressNo core press, 0)]]
      else match tget? s.tasks t.1 with
      | none => s
      | some k => if k.saved then s else s.eccTrap ⟨k.core, k.ctx⟩ 8 0) s

/-- Whether a press is to run its self-check now: it is due, and no operation is in progress (R402). -/
def State.checkDue (s : State) (core press : Nat) : Bool :=
  let x := (s.core core).pressOf press
  x.checkAt ≤ s.cycle && !(x.ops.any fun q => q.busy s.cycle)

/-- The self-checks of a core's presses that are due: whether one passes is a free value (R402, log 65). -/
def State.selfChecks (s : State) (core : Nat) : State :=
  (List.range 2).foldl (fun (s : State) p =>
    if s.checkDue core p then ({ s with fresh := s.fresh + 1 } : State).selfCheck core p (Config.pressPasses s.fresh) else s) s

/-- PRESS_SELF_CHECK. -/
def execPressSelfCheck (core press : Nat) (pass : Bool) (s : State) : Host.Outcome State Fault Refusal :=
  .next (s.selfCheck core press pass)

/-! ## Spares of HBM (R404) -/

/-- Whether a stack, channel and spare number exist: 12 stacks of 32 channels. -/
def hbmPlace (stack chan : Nat) : Bool := stack < 12 && chan < 32

/-- HBM_ROW_REMAP: one of the channel's 64 spare rows takes the row, with its contents; a post-package repair makes it permanent at the
next cold reset (R404, R410). -/
def State.rowRemap (s : State) (stack chan row spare : Nat) : State :=
  if !hbmPlace stack chan || 64 ≤ spare ||
      s.remaps.any (fun r => r.stack == stack && r.chan == chan && r.row.isSome && r.spare == spare) then s
  else { s with remaps := (s.remaps.filter fun r => !(r.stack == stack && r.chan == chan && r.row == some row)) ++
    [⟨stack, chan, some row, spare, false⟩] }

/-- HBM_ROW_REMAP. -/
def execHbmRowRemap (stack chan row spare : Nat) (s : State) : Host.Outcome State Fault Refusal :=
  .next (s.rowRemap stack chan row spare)

/-- HBM_CHANNEL_SPARE: one of the stack's two spare channels takes the channel, with its contents. -/
def State.channelSpare (s : State) (stack chan spare : Nat) : State :=
  if !hbmPlace stack chan || 2 ≤ spare || s.remaps.any (fun r => r.stack == stack && r.row.isNone && r.spare == spare) then s
  else { s with remaps := (s.remaps.filter fun r => !(r.stack == stack && r.chan == chan && r.row.isNone)) ++
    [⟨stack, chan, none, spare, false⟩] }

/-- HBM_CHANNEL_SPARE. -/
def execHbmChannelSpare (stack chan spare : Nat) (s : State) : Host.Outcome State Fault Refusal :=
  .next (s.channelSpare stack chan spare)

end Sys2Proof.Machine
end

