-- ==== Sys2Proof/Machine/Signature.lean ====
section
/-! DEFINITION. What verifies a firmware image (R412, R413): the SHA-384 digest and the ECDSA P-384 signature, which the spec names
and does not define. PRESUMED: they are those of FIPS 180-4 and FIPS 186-4 (log 65). All words are natural numbers. -/

namespace Sys2Proof.Machine

/-- Goes on with a number that has been evaluated. -/
def withNat {α : Type} (n : Nat) (f : Nat → α) : α :=
  match n with
  | 0 => f 0
  | k + 1 => f (k + 1)

/-- A big-endian number from bytes. -/
def ofBytesBE (bs : List (BitVec 8)) : Nat := bs.foldl (fun n b => 256 * n + b.toNat) 0

/-! ## SHA-384 -/

/-- The round constants. -/
def shaK : List Nat :=
  [0x428a2f98d728ae22, 0x7137449123ef65cd, 0xb5c0fbcfec4d3b2f, 0xe9b5dba58189dbbc,
   0x3956c25bf348b538, 0x59f111f1b605d019, 0x923f82a4af194f9b, 0xab1c5ed5da6d8118,
   0xd807aa98a3030242, 0x12835b0145706fbe, 0x243185be4ee4b28c, 0x550c7dc3d5ffb4e2,
   0x72be5d74f27b896f, 0x80deb1fe3b1696b1, 0x9bdc06a725c71235, 0xc19bf174cf692694] ++
  [0xe49b69c19ef14ad2, 0xefbe4786384f25e3, 0x0fc19dc68b8cd5b5, 0x240ca1cc77ac9c65,
   0x2de92c6f592b0275, 0x4a7484aa6ea6e483, 0x5cb0a9dcbd41fbd4, 0x76f988da831153b5,
   0x983e5152ee66dfab, 0xa831c66d2db43210, 0xb00327c898fb213f, 0xbf597fc7beef0ee4,
   0xc6e00bf33da88fc2, 0xd5a79147930aa725, 0x06ca6351e003826f, 0x142929670a0e6e70] ++
  [0x27b70a8546d22ffc, 0x2e1b21385c26c926, 0x4d2c6dfc5ac42aed, 0x53380d139d95b3df,
   0x650a73548baf63de, 0x766a0abb3c77b2a8, 0x81c2c92e47edaee6, 0x92722c851482353b,
   0xa2bfe8a14cf10364, 0xa81a664bbc423001, 0xc24b8b70d0f89791, 0xc76c51a30654be30,
   0xd192e819d6ef5218, 0xd69906245565a910, 0xf40e35855771202a, 0x106aa07032bbd1b8] ++
  [0x19a4c116b8d2d0c8, 0x1e376c085141ab53, 0x2748774cdf8eeb99, 0x34b0bcb5e19b48a8,
   0x391c0cb3c5c95a63, 0x4ed8aa4ae3418acb, 0x5b9cca4f7763e373, 0x682e6ff3d6b2b8a3,
   0x748f82ee5defb2fc, 0x78a5636f43172f60, 0x84c87814a1f0ab72, 0x8cc702081a6439ec,
   0x90befffa23631e28, 0xa4506cebde82bde9, 0xbef9a3f7b2c67915, 0xc67178f2e372532b] ++
  [0xca273eceea26619c, 0xd186b8c721c0c207, 0xeada7dd6cde0eb1e, 0xf57d4f7fee6ed178,
   0x06f067aa72176fba, 0x0a637dc5a2c898a6, 0x113f9804bef90dae, 0x1b710b35131c471b,
   0x28db77f523047d84, 0x32caab7b40c72493, 0x3c9ebe0a15c9bebc, 0x431d67c49c100d4c,
   0x4cc5d4becb3e42b6, 0x597f299cfc657e2a, 0x5fcb6fab3ad6faec, 0x6c44198c4a475817]

/-- The initial hash value. -/
def shaInit : List Nat :=
  [0xcbbb9d5dc1059ed8, 0x629a292a367cd507, 0x9159015a3070dd17, 0x152fecd8f70e5939,
   0x67332667ffc00b31, 0x8eb44a8768581511, 0xdb0c2e0d64f98fa7, 0x47b5481dbefa4fa4]

/-- A 64-bit rotation to the right. -/
def ror64 (n x : Nat) : Nat := (x >>> n ||| x <<< (64 - n)) % 2 ^ 64

/-- The next n words of a message schedule, whose last sixteen words stand newest first. -/
def shaExtend : Nat → List Nat → List Nat
  | 0, w => w
  | n + 1, w =>
    let a := w.getD 14 0
    let b := w.getD 1 0
    let s0 := ror64 1 a ^^^ ror64 8 a ^^^ (a >>> 7)
    let s1 := ror64 19 b ^^^ ror64 61 b ^^^ (b >>> 6)
    withNat ((s1 + w.getD 6 0 + s0 + w.getD 15 0) % 2 ^ 64) fun x => shaExtend n (x :: w)

/-- The working variables of a block. -/
structure Sha where
  a : Nat
  b : Nat
  c : Nat
  d : Nat
  e : Nat
  f : Nat
  g : Nat
  h : Nat
  deriving DecidableEq, Repr

/-- Runs the rounds of the listed constants and words. -/
def shaRounds : List Nat → List Nat → Sha → Sha
  | k :: ks, w :: ws, x =>
    let s1 := ror64 14 x.e ^^^ ror64 18 x.e ^^^ ror64 41 x.e
    let ch := (x.e &&& x.f) ^^^ ((2 ^ 64 - 1 - x.e) &&& x.g)
    let s0 := ror64 28 x.a ^^^ ror64 34 x.a ^^^ ror64 39 x.a
    let maj := (x.a &&& x.b) ^^^ (x.a &&& x.c) ^^^ (x.b &&& x.c)
    withNat (x.h + s1 + ch + k + w) fun t1 =>
    withNat ((t1 + s0 + maj) % 2 ^ 64) fun a =>
    withNat ((x.d + t1) % 2 ^ 64) fun e => shaRounds ks ws ⟨a, x.a, x.b, x.c, e, x.e, x.f, x.g⟩
  | _, _, x => x

/-- The hash value after one block of sixteen words. -/
def shaBlock (h ws : List Nat) : List Nat :=
  let x := shaRounds shaK (shaExtend 64 ws.reverse).reverse
    ⟨h.getD 0 0, h.getD 1 0, h.getD 2 0, h.getD 3 0, h.getD 4 0, h.getD 5 0, h.getD 6 0, h.getD 7 0⟩
  (h.zip [x.a, x.b, x.c, x.d, x.e, x.f, x.g, x.h]).map fun p => (p.1 + p.2) % 2 ^ 64

/-- A message padded to whole blocks of 128 bytes. -/
def shaPad (m : List (BitVec 8)) : List (BitVec 8) :=
  m ++ [(0x80 : BitVec 8)] ++ List.replicate ((239 - m.length % 128) % 128) (0 : BitVec 8) ++
    (List.range 16).map fun i => (BitVec.ofNat 8 ((8 * m.length) >>> (8 * (15 - i))) : BitVec 8)

/-- The words of the next n blocks are hashed. -/
def shaBlocks : Nat → List (BitVec 8) → List Nat → List Nat
  | 0, _, h => h
  | n + 1, m, h =>
    shaBlocks n (m.drop 128) (shaBlock h ((List.range 16).map fun i => ofBytesBE ((m.drop (8 * i)).take 8)))

/-- SHA-384. -/
def sha384 (m : List (BitVec 8)) : Nat :=
  let p := shaPad m
  ((shaBlocks (p.length / 128) p shaInit).take 6).foldl (fun n w => 2 ^ 64 * n + w) 0

/-! ## ECDSA over P-384 -/

/-- The field. -/
def ecP : Nat := 2 ^ 384 - 2 ^ 128 - 2 ^ 96 + 2 ^ 32 - 1
/-- The coefficient b. -/
def ecB : Nat := 0xb3312fa7e23ee7e4988e056be3f82d19181d9c6efe8141120314088f5013875ac656398d8a2ed19d2a85c8edd3ec2aef
/-- The order of the base point. -/
def ecN : Nat := 0xffffffffffffffffffffffffffffffffffffffffffffffffc7634d81f4372ddf581a0db248b0a77aecec196accc52973

/-- A point in Jacobian coordinates; z = 0 is the point at infinity. -/
structure Jac where
  x : Nat
  y : Nat
  z : Nat
  deriving DecidableEq, Repr

/-- The base point. -/
def ecG : Jac :=
  ⟨0xaa87ca22be8b05378eb1c71ef320ad746e1d3b628ba79b9859f741e082542a385502f25dbf55296c3a545e3872760ab7,
   0x3617de4a96262c6f5d9e98bf9292dc29f8f41dbd289a147ce9da3113b5f0b8c00a60b1ce1d7e819d7a431d7c90ea0e5f, 1⟩

/-- A difference in the field. -/
def ecSub (a b : Nat) : Nat := (a + ecP - b % ecP) % ecP

/-- Twice a point. -/
def Jac.dbl (p : Jac) : Jac :=
  withNat (p.z * p.z % ecP) fun d =>
  withNat (p.y * p.y % ecP) fun g =>
  withNat (p.x * g % ecP) fun b =>
  withNat (3 * ecSub p.x d * (p.x + d) % ecP) fun a =>
  withNat (ecSub (a * a) (8 * b)) fun x =>
  withNat (ecSub (a * ecSub (4 * b) x) (8 * (g * g))) fun y =>
  withNat (2 * p.y * p.z % ecP) fun z => ⟨x, y, z⟩

/-- The sum of two points. -/
def Jac.add (p q : Jac) : Jac :=
  if p.z = 0 then q
  else if q.z = 0 then p
  else
    withNat (p.z * p.z % ecP) fun a =>
    withNat (q.z * q.z % ecP) fun b =>
    withNat (p.x * b % ecP) fun u =>
    withNat (ecSub (q.x * a) u) fun h =>
    withNat (p.y * b * q.z % ecP) fun s =>
    withNat (ecSub (q.y * a * p.z) s) fun r =>
    if h = 0 then (if r = 0 then p.dbl else ⟨1, 1, 0⟩)
    else
      withNat (h * h % ecP) fun hh =>
      withNat (h * hh % ecP) fun hhh =>
      withNat (u * hh % ecP) fun v =>
      withNat (ecSub (r * r) (hhh + 2 * v)) fun x =>
      withNat (ecSub (r * ecSub v x) (s * hhh)) fun y =>
      withNat (h * p.z * q.z % ecP) fun z => ⟨x, y, z⟩

/-- A multiple of a point, by the bits of the factor from the highest. -/
def Jac.times (p : Jac) : List Bool → Jac → Jac
  | [], acc => acc
  | b :: l, acc =>
    let d := acc.dbl
    let t := if b then p.add d else d
    withNat t.x fun x => withNat t.y fun y => withNat t.z fun z => p.times l ⟨x, y, z⟩

/-- The 384 bits of a number, the highest first. -/
def bits384 (n : Nat) : List Bool := (List.range 384).reverse.map fun i => n.testBit i

/-- A power modulo the order, by the bits of the exponent from the highest. -/
def powN (b : Nat) : List Bool → Nat → Nat
  | [], acc => acc
  | e :: l, acc => withNat (acc * acc * (if e then b else 1) % ecN) fun a => powN b l a

/-- Whether a public key (x, y) is a point of the curve. -/
def onCurve (x y : Nat) : Bool :=
  Nat.blt x ecP && Nat.blt y ecP && y * y % ecP == ecSub (x * x * x + ecB) (3 * x)

/-- Whether the signature (r, s) of a digest verifies against a public key (x, y). -/
def ecdsaGood (x y r s digest : Nat) : Bool :=
  onCurve x y && Nat.blt 0 r && Nat.blt r ecN && Nat.blt 0 s && Nat.blt s ecN &&
    (withNat (powN s (bits384 (ecN - 2)) 1) fun w =>
      let t := (ecG.times (bits384 (digest * w % ecN)) ⟨1, 1, 0⟩).add
        ((⟨x, y, 1⟩ : Jac).times (bits384 (r * w % ecN)) ⟨1, 1, 0⟩)
      t.z != 0 && (t.x == r * t.z * t.z % ecP || (Nat.blt (r + ecN) ecP && t.x == (r + ecN) * t.z * t.z % ecP)))

end Sys2Proof.Machine
end

