-- ==== Sys2Proof/Machine/Power.lean ====
section
/-! DEFINITION. Resets, firmware images, power states, the governor, thermal protection, and writes of device registers
(R6, R393, R410 to R419). -/

namespace Sys2Proof.Machine

open Sys2Proof

/-- Changes the board registers. -/
def State.updBoard (s : State) (f : Board → Board) : State := { s with board := f s.board }

/-- Whether a queue is active. -/
def State.anyQueueActive (s : State) : Bool := s.queues.any fun p => s.qState p.1 == 1
/-- Whether a context holds a task. -/
def State.anyTask (s : State) : Bool := !s.allCtxs.isEmpty

/-! ## Reset (R410, R411) -/

/-- Instructions of the agenda that the machine itself has put there: they do not outlive a reset. -/
def Instr.own : Instr → Bool
  | .rxGload _ _ => true | .rxGstore _ _ => true | .rxGatom _ _ => true | .rxGresp _ _ => true
  | .registerWrite _ _ => true
  | _ => false

/-- Step 2: every register at its Reset value. What stays is outside the device, fused, or a repair of HBM; `mem` is what
memory holds after it, and `rows` the remapped rows and channels. -/
def State.cleared (s : State) (mem : Memory) (rows : List Remap) : State :=
  { State.reset with
    mem := mem, remaps := rows, fresh := s.fresh, agenda := s.agenda.filter fun i => !Instr.own i
    board := { Board.reset with znfM := s.board.znfM, floors := s.board.floors, keyDigest := s.board.keyDigest, tripped := s.board.tripped } }

/-- Whether an address is that of the byte of V and GWEN of an entry of a die's ASID table (Table 03-3). -/
def asidByte (a : Nat) : Bool :=
  (List.range 4).any fun d =>
    let b := (Config.asidTableBase d).toNat
    b ≤ a && a < b + 16384 && (a - b) % 16 == 0

/-- The ASID tables as the boot firmware writes them: V = 0 and GWEN = 0 in every entry (R51). -/
def bootTables (m : Memory) : Memory :=
  (m.map fun c => if asidByte c.1 then (c.1, c.2 &&& 0xFC#8) else c).filter fun c => c.2 != 0

/-- A little-endian field of an image's header. -/
def imgFld (f : Nat → Byte) (off n : Nat) : Nat := ofBytes ((List.range n).map fun i => f (off + i))
/-- LENGTH of an image. -/
def imgLength (f : Nat → Byte) : Nat := imgFld f 0x010 8

/-- Limit of an image's length, by target. -/
def fwLimit (target : Nat) : Nat := if target = 3 then 327680 else 64 * 2 ^ 20

/-- Whether a header has the values of Table 19-4 for the target requested. -/
def headerGood (f : Nat → Byte) (target : Nat) : Bool :=
  imgFld f 0 4 == 0x5A4E4657 && imgFld f 4 2 == 1 && imgFld f 0x00C 4 == 0 &&
  (List.range 128).all (fun i => f (0x080 + i) == 0) &&
  (List.range 160).all (fun i => f (0x160 + i) == 0) &&
  imgLength f != 0 && imgLength f % 4 == 0 && Nat.ble (imgLength f) (fwLimit target)

/-- Bytes of an image. -/
def imgBytes (f : Nat → Byte) (off n : Nat) : List Byte := (List.range n).map fun i => f (off + i)

/-- Whether the key is the fused one, and the signature verifies over header bytes 0x000 to 0x0FF and the image (R412, R413). -/
def imageSigned (f : Nat → Byte) (key : Nat) : Bool :=
  sha384 (imgBytes f 0x020 96) == key &&
  ecdsaGood (ofBytesBE (imgBytes f 0x020 48)) (ofBytesBE (imgBytes f 0x050 48)) (ofBytesBE (imgBytes f 0x100 48))
    (ofBytesBE (imgBytes f 0x130 48)) (sha384 (imgBytes f 0 256 ++ imgBytes f 512 (imgLength f)))

/-- What the checks of an image give: BADSIG, ROLLBACK, BADTARGET or OK, in the order of R413. -/
def fwJudge (f : Nat → Byte) (target key floor : Nat) : Nat :=
  if !headerGood f target || !imageSigned f key then 3
  else if Nat.blt (imgFld f 8 4) floor then 4
  else if imgFld f 6 2 != target then 6
  else 2

/-- Words of n bytes of an image from an offset, those that are not 0. -/
def imgWords (f : Nat → Byte) (off len n bytes : Nat) : List (Nat × Nat) :=
  ((List.range n).map fun i => (i, ofBytes ((List.range bytes).map fun j =>
    if Nat.blt (off + bytes * i + j) len then f (0x200 + off + bytes * i + j) else 0))).filter fun p => p.2 != 0

/-- Loads a transport-core image into a die: stopped, loaded and restarted at START (R413, R414). -/
def State.loadTc (s : State) (f : Nat → Byte) (d : Nat) : State :=
  let len := imgLength f
  let imem := (imgWords f 0 (min len 65536) 16384 4).map fun p => (p.1, (BitVec.ofNat 32 p.2 : W32))
  let smem := (imgWords f 65536 len 32768 8).map fun p => (p.1, (BitVec.ofNat 64 p.2 : W64))
  let start := BitVec.ofNat 14 (imgFld f 0x018 8)
  ((s.tcStopIt d).updTc d fun t => { t with imem := imem, smem := smem, start := start }).tcStartIt d

/-- A byte of the image of a target that the boot ROM finds at the n-th reset. -/
def bootByte (n target i : Nat) : Byte := (Config.bootImage n target).getD i 0

/-- What the boot ROM's checks of the four images give, the first that fails (R410 to R412). -/
def State.bootJudge (s : State) (n : Nat) : Nat :=
  ([0, 1, 2, 3].map fun t => fwJudge (bootByte n t) t s.board.keyDigest (tget 0 s.board.floors t)).find? (· != 2) |>.getD 2

/-- Steps 3 to 6: the link trains, the images are authenticated, the ASID tables and their bases are written and the transport-core
image is started on each die. An image that fails leaves the sequence at step 4 with the failure in RESULT (R411). The bias table is
zeroed where BIASBASE, 0 until then, places it (R386; State.placeBias). -/
def State.boot (s : State) : State :=
  let n := s.fresh
  let r := s.bootJudge n
  let s := { s with fresh := n + 1, link := { s.link with up := true, cxl := Config.linkCxl n } }
  if r != 2 then s.updBoard fun b => { b with boot := 4, fwresult := r }
  else
    let s := ({ s with mem := bootTables s.mem } : State).updBoard fun b =>
      { b with boot := 6, fwresult := 2, fwver := BitVec.ofNat 32 (imgFld (bootByte n 3) 8 4) }
    (List.range 4).foldl (fun (s : State) d =>
      (s.updDie d fun x => { x with asidBase := (Config.asidTableBase d).toNat, asidTab := [] }).loadTc (bootByte n 3) d) s

/-- The remaps that a cold reset finds: the repairs of rows have been made permanent (R404, R410). -/
def coldRemaps (l : List Remap) : List Remap := l.map fun r => { r with perm := r.perm || r.row.isSome }

/-- COLD_RESET: HBM is lost; host memory is the host's. -/
def State.coldResetAll (s : State) : State :=
  let s := s.cleared (s.mem.filter fun c => isHostHomed c.1) (coldRemaps s.remaps)
  (s.updBoard fun b => { b with tripped := false }).boot

/-- COLD_RESET. -/
def execColdReset (s : State) : Host.Outcome State Fault Refusal := .next s.coldResetAll

/-- WARM_RESET: HBM keeps its contents. THERMTRIP_N, once low, stays low (R418). -/
def State.warmResetAll (s : State) : State := if s.board.powered then (s.cleared s.mem s.remaps).boot else s

/-- WARM_RESET. -/
def execWarmReset (s : State) : Host.Outcome State Fault Refusal := .next s.warmResetAll

/-- POWER_LOSS: everything volatile is lost and nothing runs until a cold reset. -/
def State.losePower (s : State) : State :=
  (s.cleared (s.mem.filter fun c => isHostHomed c.1) s.remaps).updBoard fun b => { b with tripped := false, powered := false, boot := 0 }

/-- POWER_LOSS. -/
def execPowerLoss (s : State) : Host.Outcome State Fault Refusal := .next s.losePower

/-! ## Firmware images (R412 to R414) -/

/-- The image header at the address of FWCTL, as bytes. -/
def State.imageByte (s : State) (off : Nat) : Byte := s.homeByte (fld s.board.fwctl 63 12 * 4096 + off)
/-- TARGET that FWCTL requests. -/
def State.fwTarget (s : State) : Nat := fld s.board.fwctl 3 1
/-- What the checks of the image at FWCTL's address give. -/
def State.fwVerdict (s : State) : Nat :=
  fwJudge s.imageByte s.fwTarget s.board.keyDigest (tget 0 s.board.floors s.fwTarget)

/-- FW_RELOAD: a write of FWCTL; with GO it starts a reload, refused at once with BUSYQ or BADTARGET (R414). -/
def State.writeFwctl (s : State) (w : W64) : State :=
  if s.board.fwresult = 1 then s
  else
    let s := s.updBoard fun b => { b with fwctl := setFld (w &&& ~~~0xFFF#64) 3 1 (fld w 3 1) }
    if !bit w 0 then s
    else if 4 ≤ s.fwTarget then s.updBoard fun b => { b with fwresult := 6 }
    else if s.fwTarget = 0 && (s.anyQueueActive || s.anyTask) then s.updBoard fun b => { b with fwresult := 5 }
    else s.updBoard fun b => { b with fwresult := 1 }

/-- FW_RELOAD. -/
def execFwReload (w : W64) (s : State) : Host.Outcome State Fault Refusal := .next (s.writeFwctl w)

/-- FW_RELOAD_COMPLETE: the reload of a target is over. RESULT leaves busy; an image that is accepted is loaded, a refused one leaves the
running image. -/
def State.fwDone (s : State) (target : Nat) : State :=
  if s.board.fwresult != 1 || target != s.fwTarget then s
  else
    let r := s.fwVerdict
    let f := s.imageByte
    let s := s.updBoard fun b => { b with fwresult := r, fwver := if r = 2 then BitVec.ofNat 32 (imgFld f 8 4) else b.fwver }
    if r = 2 && target = 3 then (List.range 4).foldl (fun (s : State) d => s.loadTc f d) s else s

/-- FW_RELOAD_COMPLETE. -/
def execFwReloadComplete (target : Nat) (s : State) : Host.Outcome State Fault Refusal := .next (s.fwDone target)

/-- FWFLOORSET: after step 6, the floor of TARGET rises to VALUE when that is greater (R413). -/
def State.setFloor (s : State) (w : W64) : State :=
  let t := fld w 1 0
  if s.board.boot < 6 || fld w 63 32 ≤ tget 0 s.board.floors t then s
  else s.updBoard fun b => { b with floors := tset b.floors t (fld w 63 32) }

/-- FWFLOOR_SET. -/
def execFwfloorSet (w : W64) (s : State) : Host.Outcome State Fault Refusal := .next (s.setFloor w)

/-! ## Power and temperature (R416 to R419) -/

/-- Cycles of an exit from M2, in which the ports retrain: 2 ms of the 700 MHz clock (Table 19-2, R5). -/
def exitCycles : Nat := 1400000

/-- POWER_STATE_REQUEST: on ZNF-M alone; M2 only with no queue active and no task, code 3 never (R416). -/
def State.requestState (s : State) (st : Nat) : State :=
  if !s.board.znfM || st = 3 || (st = 2 && (s.anyQueueActive || s.anyTask)) then s
  else s.updBoard fun b => { b with pstate := st, exitAt := if b.pstate = 2 && st != 2 then s.cycle + exitCycles else b.exitAt }

/-- POWER_STATE_REQUEST. -/
def execPowerStateRequest (st : BitVec 2) (s : State) : Host.Outcome State Fault Refusal := .next (s.requestState st.toNat)

/-- The power limit that acts: 800 to 3,200 W (Table 19-3). -/
def Board.actLimit (b : Board) : Nat := max 800 (min 3200 b.limit)

/-- The least GATE by which a draw of `avg` under the present GATE comes to the limit or below: the draw goes with the cycles in which
the cores issue (R417, the worked example of 19; log 65). -/
def Board.needGate (b : Board) (avg : Nat) : Nat :=
  if avg ≤ b.actLimit then 0 else min 15 (16 - b.actLimit * (16 - b.gate) / avg)

/-- POWER_GOVERNOR: a new average, and in M0 and M1 a GATE that holds it at LIMIT; a thermal gate stands over it (R417 to R419). -/
def State.govern (s : State) (avg gate : Nat) : State :=
  if !s.board.znfM then s
  else s.updBoard fun b =>
    { b with avg := avg % 2 ^ 32, peak := max b.peak (avg % 2 ^ 31)
             gate := if b.forced then 15 else if b.pstate = 2 then b.gate else max (min 15 gate) (b.needGate avg) }

/-- POWER_GOVERNOR. -/
def execPowerGovernor (avg gate : Nat) (s : State) : Host.Outcome State Fault Refusal := .next (s.govern avg gate)

/-- TELPWR_CLEAR_PEAK. -/
def State.clearPeak (s : State) : State := if s.board.znfM then s.updBoard fun b => { b with peak := 0 } else s

/-- TELPWR_CLEAR_PEAK. -/
def execTelpwrClearPeak (s : State) : Host.Outcome State Fault Refusal := .next s.clearPeak

/-- The thermal gate: a die at 105 °C or above forces GATE to 15, and it ends once all four are below 100 °C (R418). -/
def State.thermal (s : State) : State :=
  if (List.range 4).any fun d => Nat.ble 840 (s.die d).temp then s.updBoard fun b => { b with forced := true, gate := 15 }
  else if s.board.forced && (List.range 4).all (fun d => Nat.blt (s.die d).temp 800) then
    s.updBoard fun b => { b with forced := false, gate := 0 }
  else s

/-- A die's temperature, in 1/8 °C: 105 °C forces GATE to 15; 115 °C stops issue and drives THERMTRIP_N low, at which the board
controller of ZNF-M removes power at once (R418). -/
def State.heat (s : State) (die temp : Nat) : State :=
  let s := (s.updDie die fun d => { d with temp := temp }).thermal
  if temp < 920 then s
  else if s.board.znfM then s.losePower
  else s.updBoard fun b => { b with tripped := true }

/-- THERMAL_GATE. -/
def execThermalGate (die temp : Nat) (s : State) : Host.Outcome State Fault Refusal := .next (s.heat die temp)
/-- THERMAL_TRIP. -/
def execThermalTrip (die temp : Nat) (s : State) : Host.Outcome State Fault Refusal := .next (s.heat die temp)

/-- THERMAL_GATE_RELEASE: the temperatures of the four dies; the gate ends once all are below 100 °C (R418). -/
def State.cool (s : State) (ts : List Nat) : State :=
  ts.zipIdx.foldl (fun (s : State) p => s.heat p.2 p.1) s

/-- THERMAL_GATE_RELEASE. -/
def execThermalGateRelease (t0 t1 t2 t3 : Nat) (s : State) : Host.Outcome State Fault Refusal :=
  .next (s.cool [t0, t1, t2, t3])

/-- Whether the cores may issue at all: powered, booted, not tripped, and neither in M2 nor on the way out of it. -/
def State.awake (s : State) : Bool :=
  s.board.powered && s.board.boot == 6 && !s.board.tripped && !s.portsOff

/-- Whether a cycle is gated: 16 − GATE of each 16 cycles issue (R417). -/
def State.gatedCycle (s : State) : Bool := 16 - s.board.gate ≤ s.cycle % 16

/-! ## Writes of device registers (R6, R411) -/

/-- The registers of Table 19-3. -/
def boardReg : DevReg → Bool
  | .fwctl => true | .fwstat => true | .fwfloor0 => true | .fwfloor1 => true | .fwfloorset => true | .pwrctl => true
  | .telpwr => true | .teltemp => true | .telthr => true
  | _ => false

/-- The writable bits of a VICFG word (Table 17-4). -/
def vicfgMask : Nat → W64
  | 0 => mkW [(2 ^ 44 - 1, 20)] | 1 => mkW [(2 ^ 48 - 1, 16)] | 2 => mkW [(2 ^ 52 - 1, 12), (63, 0)]
  | 4 => mkW [(2 ^ 32 - 1, 32)] | _ => 0

/-- TCCTL: START, then CLRREG, then RUN (R157). -/
def State.writeTcctl (s : State) (d : Nat) (v : W64) : State :=
  let s := s.updTc d fun t => { t with start := BitVec.ofNat 14 (fld v 29 16) }
  let s := if bit v 1 then s.tcClr d else s
  if bit v 0 then s.tcStartIt d else s.tcStopIt d

/-- TXDSTAT: MCDEG is write-1-to-clear, CLR clears the counters (R153). -/
def State.writeTxdstat (s : State) (d : Nat) (v : W64) : State :=
  let s := if bit v 1 then s.updTx d fun t => { t with mcdeg := false } else s
  if bit v 0 then s.txClr d else s

/-- HLSTAT.DOWNSEEN, HLCTL (Table 17-3). -/
def State.writeHlctl (s : State) (v : W64) : State :=
  let s := s.updLink fun l => { l with aoc := bit v 1 }
  if bit v 0 then s.rearm else s

/-- A word of a channel table, as the work distributor writes it: its reserved bits are 0, and a KIND of 4 to 7 is refused (R137). -/
def State.writeChan (s : State) (asid i : Nat) (v : W64) : State :=
  let v := match i % 4 with
    | 0 => rsvd 19 0 v
    | 2 => rsvd 7 0 v
    | 3 => rsvd 46 0 v
    | _ => v
  if 1024 ≤ asid || 1024 ≤ i || (i % 4 == 0 && 4 ≤ fld v 62 60) then s
  else s.updComm asid fun m => { m with chans := tset m.chans i v }

/-- PTSIZE, which the work distributor sets, up to 2²⁴ (R120). -/
def State.writePtsize (s : State) (asid n : Nat) : State :=
  if 1024 ≤ asid || 2 ^ 24 < n then s else s.updComm asid fun m => { m with ptsize := n }

/-- The job identifier that the work distributor gives a communication context; no two contexts share one (R464). -/
def State.writeJob (s : State) (asid n : Nat) : State :=
  if 1024 ≤ asid || s.comm.any (fun c => c.1 != asid && c.2.job == some n) then s
  else s.updComm asid fun m => { m with job := some n }

/-- BIASBASE: the boot firmware's table, placed for the first time since reset, holds zeros, so that every page is in device bias
(R386, R410, log 20). -/
def State.placeBias (s : State) (v : W64) : State :=
  let b := v &&& ~~~0xFFF#64
  let s := if s.link.biasbase != 0 then s
    else { s with mem := s.mem.filter fun c => !(b.toNat ≤ c.1 && c.1 < b.toNat + 24 * 2 ^ 20) }
  s.updLink fun l => { l with biasbase := b }

/-- PWRCTL: on ZNF-M alone. -/
def State.writePwrctl (s : State) (v : W64) : State :=
  if !s.board.znfM then s else (s.updBoard fun b => { b with limit := fld v 47 32 }).requestState (fld v 1 0)

/-- REGISTER_WRITE, by the access codes of the registers (R6). -/
def State.writeReg (s : State) (r : DevReg) (v : W64) : State :=
  if s.board.boot < 6 && !boardReg r then s
  else match r with
  | .caskctl c => s.updClu c fun x => { x with caskctl := v &&& 15#64 }
  | .caskmiss c => if bit v 31 then s.missClear c else s
  | .tcctl d => s.writeTcctl d v
  | .tcwdog d => s.updTc d fun t => { t with limit := fld v 31 0 }
  | .tcimem d i => if (s.die d).tc.state = 1 || 16384 ≤ i then s
    else s.updTc d fun t => { t with imem := tset t.imem i (v.setWidth 32) }
  | .tcsmem d i => if (s.die d).tc.state = 1 || 32768 ≤ i then s
    else s.updTc d fun t => { t with smem := tset t.smem i v }
  | .txdstat d => s.writeTxdstat d v
  | .trbase d => s.updDie d fun x => { x with trace := { x.trace with base := v } }
  | .trctl d => s.updDie d fun x => { x with trace := { x.trace with ctl := v &&& 255#64, stopped := false } }
  | .trtail d => s.writeTail d v
  | .hlstat => if bit v 0 then s.updLink fun l => { l with downseen := false } else s
  | .hlctl => s.writeHlctl v
  | .biasbase => s.placeBias v
  | .orphbase => s.updLink fun l => { l with orphbase := v }
  | .vicfg i w =>
    let m := vicfgMask w
    s.updLink fun l => { l with vicfg := tset l.vicfg (8 * i + w) (merge m (tget 0 l.vicfg (8 * i + w)) v) }
  | .fwctl => s.writeFwctl v
  | .fwfloorset => s.setFloor v
  | .pwrctl => s.writePwrctl v
  | .telpwr => if bit v 31 then s.clearPeak else s
  | .ptsize a => s.writePtsize a v.toNat
  | .jobId a => s.writeJob a v.toNat
  | .chanWord a i => s.writeChan a i v
  | .groupAddr d g => s.updDie d fun x => { x with groups := if v = 0 then tdel x.groups g else tset x.groups g v }
  | .tcstat _ => s
  | .tccnt _ => s
  | .txcnt0 _ => s
  | .txcnt1 _ => s
  | .txcnt2 _ => s
  | .trhead _ => s
  | .dcnt _ _ => s
  | .biascnt => s
  | .orphcnt => s
  | .errcnt _ _ => s
  | .errlost _ => s
  | .fwstat => s
  | .fwfloor0 => s
  | .fwfloor1 => s
  | .teltemp => s
  | .telthr => s

/-- REGISTER_WRITE. -/
def execRegisterWrite (r : DevReg) (v : W64) (s : State) : Host.Outcome State Fault Refusal := .next (s.writeReg r v)

end Sys2Proof.Machine
end

