-- ==== Sys2Proof/Machine/Schedule.lean ====
section
/-! DEFINITION. Fetching and issuing the next bundle, the issue selector, the engines' turn in each cycle, and the next word of
a transport core (R89, R220, R221, R363 to R365; log 1). -/

namespace Sys2Proof.Machine

open Sys2Proof

/-! ## Fetch (R86) -/

/-- Words that the instruction buffer prefetches with each bundle (log 52). -/
def prefetchRate : Nat := 8

/-- What fetching the bundle does to the instruction buffer and the L1 instruction cache: its words, and the next ones of the
prefetch, which starts again behind a bundle that it has not run ahead of (R86). -/
def State.fetchWords (s : State) (w : At) (nw : Nat) : State :=
  let pc := (s.ctx w).pipe.pc
  let s := (List.range nw).foldl (fun (s : State) i => s.fetchFill w (pc + BitVec.ofNat 64 (4 * i))) s
  let stop := pc + BitVec.ofNat 64 (4 * nw)
  let ahead := fun (a : W64) => stop ≤ a && a.toNat ≤ stop.toNat + 4096
  (s.updPipe w fun p => { p with pf := if ahead p.pf then p.pf else stop }).prefetch w (stop - 4) prefetchRate

/-- A context's turn to issue: the stall of its fetch (R387), the trap of checks 1 and 2, or its bundle. -/
def State.issueNext (s : State) (w : At) : State :=
  match (if (s.ctx w).mayIssue then s.bundleWait w 8 (s.ctx w).pipe.pc else none) with
  | some f => s.stallAt w .stalled f
  | none => match s.nextBundle w with
  | .error t => if (s.ctx w).mayIssue then s.takeTrap w t (s.ctx w).pipe.pc (s.lenAt w (s.ctx w).pipe.pc) else s.issueBundle w [] 0
  | .ok (sls, nw) => (s.fetchWords w nw).issueBundle w sls nw

/-! ## The issue selector (R363, R364) -/

/-- The state of a context in this cycle (R363). -/
def State.runNow (s : State) (w : At) : Run :=
  let c := s.ctx w
  if c.trid.isNone || c.sched.run == .idle then .idle
  else if c.sched.run == .held || c.sched.stop.isSome then .held
  else if c.sched.ending.isSome then .waiting
  else if !c.sched.deferred.isEmpty then .ready
  else if (s.bundleWait w 8 c.pipe.pc).isSome then .stalled
  else match s.nextBundle w with
    | .error _ => .ready
    | .ok (sls, nw) => match earlyTrap c.sup sls nw with
      | some _ => .ready
      | none => match (s.landed w).stallOf w sls with
        | some (r, _) => r
        | none => .ready

/-- Brings the states of a core's contexts up to this cycle; a context that is not Ready has not been ready. -/
def State.refreshRuns (s : State) (core : Nat) : State :=
  (List.range 4).foldl (fun (s : State) k =>
    let w : At := ⟨core, k⟩
    let r := s.runNow w
    if (s.ctx w).trid.isNone then s
    else s.updSched w fun x =>
      { x with run := r, readyFor := if r == .ready then x.readyFor else 0,
               stalled := if r == .stalled then x.stalled else 0 }) s

/-- Whether the holder of a core's issue is switchable (R363). -/
def State.switchable (s : State) (core : Nat) : Bool :=
  match (s.core core).holder with
  | none => true
  | some k =>
    let x := (s.ctx ⟨core, k⟩).sched
    x.run == .idle || x.run == .waiting || x.run == .held || (x.run == .stalled && 8 ≤ x.stalled)

/-- The first context of a list after a pointer, in the order 0, 1, 2, 3, 0, … -/
def afterPtr (p : Nat) (l : List Nat) : Option Nat := (List.range 4).findSome? fun i => l.find? fun c => c == (p + 1 + i) % 4

/-- The choice among ready contexts: the highest class, then the first after the class's pointer (R364). -/
def State.choose (s : State) (core : Nat) (l : List Nat) : Option (Nat × Nat) :=
  let cls := fun k => s.eff ⟨core, k⟩
  let best := l.foldl (fun m k => max m (cls k)) 0
  (afterPtr (tget 3 (s.core core).ptr best) (l.filter fun k => cls k == best)).map fun k => (best, k)

/-- A chosen context holds issue from the next cycle, and is the pointer of its class. -/
def State.take (s : State) (core : Nat) (l : List Nat) : State :=
  match s.choose core l with
  | none => s
  | some (cl, k) =>
    (s.updCore core fun x => { x with holder := some k, ptr := tset x.ptr cl k }).updSched ⟨core, k⟩ fun x => { x with stalled := 0 }

/-- The ready contexts of a core. -/
def State.readies (s : State) (core : Nat) : List Nat :=
  (List.range 4).filter fun k => (s.ctx ⟨core, k⟩).trid.isSome && (s.ctx ⟨core, k⟩).sched.run == .ready

/-- ISSUE_SELECT: in the cycle after a YIELD another ready context takes issue; else a Ready holder issues; else a holder that
is switchable gives issue to the choice of R364 (R259, R364). -/
def State.select (s : State) (core : Nat) : State :=
  let s := s.refreshRuns core
  let k := s.core core
  let others := (s.readies core).filter fun c => some c != k.holder
  let s' := s.updCore core fun x => { x with yielded := false }
  if k.yielded && !others.isEmpty then s'.take core others
  else match k.holder with
  | none => s'.take core (s.readies core)
  | some h =>
    let w : At := ⟨core, h⟩
    if (s.ctx w).sched.run == .ready then s'.issueNext w
    else
      let s' := if (s.ctx w).mayIssue then s'.issueNext w else s'
      if s.switchable core then s'.take core (s.readies core) else s'

/-- ISSUE_SELECT. A gated cycle, a thermal trip, M2 or a device that has not booted keeps every core from issuing. -/
def State.coreTurn (s : State) (core : Nat) : State :=
  if !s.awake || s.gatedCycle then s else s.select core

/-- ISSUE_SELECT. -/
def execIssueSelect (core : Nat) (s : State) : Host.Outcome State Fault Refusal := .next (s.coreTurn core)

/-! ## The engines' turn (log 1) -/

/-- The state after an event; an event that does not end in a next state changes nothing. -/
def State.event (s : State) (f : State → Host.Outcome State Fault Refusal) : State :=
  match f s with
  | .next t => t
  | _ => s

/-- What the engines of a core do in a cycle. -/
def State.coreEngines (s : State) (core : Nat) : State :=
  let s := s.event (execPressResultInPlace core 0)
  let s := s.event (execPressResultInPlace core 1)
  let s := s.selfChecks core
  let s := s.event (execMzeroComplete core)
  let s := s.event (execMcvtComplete core)
  let s := s.event (execMmagStart core 0)
  let s := s.event (execMmagStart core 1)
  let s := s.event (execCopyTransfer core)
  let s := (List.range 4).foldl (fun (s : State) k =>
    if (s.ctx ⟨core, k⟩).trid.isNone then s
    else
      let s := (List.range 4).foldl (fun (s : State) q =>
        (s.event (execCopyEntryComplete core k q)).event (execQfenceComplete core k q)) s
      let s := s.event (execPlacementInstall core k)
      let s := s.event (execSyncOpen core k)
      let s := s.event (execDigcmpResolve core k)
      let s := (List.range (s.ctx ⟨core, k⟩).pipe.sb.length).reverse.foldl
        (fun (s : State) i => s.event (execScoreboardResultLand core k i)) s
      let s := s.event (execDeferredTrapSuspend core k)
      let s := s.event (execSoftpreBoundary core k)
      let s := s.event (execSoftpreTimeout core k)
      s.event (execTaskEnd core k)) s
  s.event (execStallSwitchCount core)

/-- What a die's transport does of itself in a cycle, its ports being on (Table 19-2): probes, retransmission timeouts and retry backoffs that are due, accesses and
reads that waited for a page's bias, and what it has to send (R117, R162, R176, R387, R466). -/
def State.transportTurn (s : State) (die : Nat) : State :=
  if s.portsOff then s
  else
  let s := s.event (execPathProbe die)
  let s := (s.die die).tx.flows.foldl (fun (s : State) f =>
    (f.2.pkts.filter (·.backoff)).foldl (fun (s : State) k => s.event (execRetryBackoffExpiry die f.1 k.psn))
      (s.event (execRtoExpiry die f.1))) s
  let s := if (s.die die).tx.rxHeld.isEmpty then s else s.serveHeld die (fun _ _ => false) false
  (if (s.die die).tx.rmaHeld.isEmpty then s else s.retryRma die).pump die

/-- What the engines of a die do in a cycle. -/
def State.dieEngines (s : State) (die : Nat) : State :=
  let s := s.transportTurn die
  let s := s.settleOps die
  let s := (s.die die).tx.ops.foldl (fun (s : State) o => s.event (execTransportOpComplete die o.opid)) s
  let s := s.cmdAll die
  let s := s.event (execTcWatchdog die)
  let s := (s.die die).tc.timers.foldl (fun (s : State) t => s.event (execTcTimerExpiry die t.1)) s
  let s := (s.die die).steps.foldl (fun (s : State) b =>
    (s.event (execStepbEvaluation die b.1)).event (execStepeClose die b.1)) s
  s.event (execShootdownComplete die)

/-- What a queue does in a cycle. -/
def State.queueEngine (s : State) (q : Nat) : State :=
  let s := s.event (execLaunchComplete q)
  let s := s.event (execWaitSatisfied q)
  let s := s.event (execLaunchPacket q)
  let s := s.event (execWaitPacket q)
  let s := s.event (execSignalPacket q)
  s.event (execMarkPacket q)

/-- Ages the contexts that are Ready and do not hold issue, or hold it and have not issued (R365). -/
def State.ageAll (s : State) : State := s.allCtxs.foldl (fun (s : State) p => s.event (execPriorityAging p.1.core p.1.ctx)) s

/-- Counts a gated cycle (R419). -/
def State.countGate (s : State) : State :=
  if s.gatedCycle then s.updBoard fun b => { b with gated := satAdd 64 b.gated 1 } else s

/-- The end of a cycle: the counts of the cycle, then everything that is due in the next. -/
def State.tick (s : State) : State :=
  let s := s.countGate.ageAll
  let s : State := { s with cycle := s.cycle + 1 }
  let s := (s.cores.map (·.1)).foldl (fun (s : State) c => s.coreEngines c) s
  let s := s.ntrQueue.foldl (fun (s : State) w => s.event (execNtrAnswer w.core w.ctx)) s
  let s := s.leesCores.foldl (fun (s : State) c => s.settleLees c) s
  let s := s.releases.foldl (fun (s : State) r => s.event (execReleaseGo r.trid)) s
  let s := (s.dies.map (·.1)).foldl (fun (s : State) d => s.dieEngines d) s
  let s := (s.cores.map (·.1)).foldl (fun (s : State) c =>
    (s.event (execMmagStart c 0)).event (execMmagStart c 1)) s
  let s := (s.clus.map (·.1)).foldl (fun (s : State) c => s.event (execTaskSequencerDispatch c)) s
  let s := (s.queues.map (·.1)).foldl (fun (s : State) q => s.queueEngine q) s
  (s.link.holds.foldl (fun (s : State) h => s.event (execBiasHoldExpiry h.1)) s).hostTurn

/-! ## Turns (log 1) -/

/-- The place of an agent in the order of turns. -/
def Agent.rank : Agent → Nat
  | .core c => c
  | .tc d => 512 + d

/-- The agents that act: cores with a task, in number order, then running transport cores. -/
def State.agents (s : State) : List Agent :=
  ((s.cores.filter fun k => k.2.ctxs.any fun c => c.2.trid.isSome).map fun k => Agent.core k.1) ++
  ((s.dies.filter fun d => d.2.tc.state == 1).map fun d => Agent.tc d.1)

/-- The focus moves to the next agent; when it wraps, the cycle ends. -/
def State.passTurn (s : State) : State :=
  match s.agents.find? fun a => s.focus.rank < a.rank with
  | some a => { s with focus := a }
  | none =>
    let t := s.tick
    match t.agents with
    | [] => t
    | a :: _ => { t with focus := a }

/-! ## The transport cores -/

/-- The word that a transport core is due to issue. -/
def State.tcWord (s : State) (d : Nat) : W32 := tget 0 (s.die d).tc.imem (s.die d).tc.pc.toNat

/-- The instruction that the focus executes, if it is a running transport core of a powered device, not busy with its last one, and
its word decodes. -/
def State.tcInstr (s : State) : Option Instr :=
  match s.focus with
  | .core _ => none
  | .tc d => if (s.die d).tc.state == 1 && s.board.powered && (s.die d).tc.busy == 0 then decodeTc (s.tcWord d) else none

/-- What the focus does when it executes no transport-core instruction: a core's turn, the second cycle of an instruction (R155), or
the ILLOP of a word that does not decode (R158). -/
def State.turn (s : State) : State :=
  match s.focus with
  | .core c => s.coreTurn c
  | .tc d =>
    if (s.die d).tc.busy != 0 then s.updTc d fun t => { t with busy := t.busy - 1 }
    else if (s.die d).tc.state == 1 && s.board.powered then s.tcFault d 1 else s

end Sys2Proof.Machine
end

