-- ==== Sys2Proof/Machine/Dispatch.lean ====
section
/-! DEFINITION. One arm per constructor of Instr, each one direct call of its meaning. -/

namespace Sys2Proof.Machine

/-- What an instruction or event does to a state. -/
def exec (i : Instr) (s : State) : Host.Outcome State Fault Refusal :=
  match i with
  | .add f d a b => Sys2Proof.Machine.execAdd f d a b s
  | .sub f d a b => Sys2Proof.Machine.execSub f d a b s
  | .mul f d a b => Sys2Proof.Machine.execMul f d a b s
  | .mulh f d a b => Sys2Proof.Machine.execMulh f d a b s
  | .mulhu f d a b => Sys2Proof.Machine.execMulhu f d a b s
  | .div f d a b => Sys2Proof.Machine.execDiv f d a b s
  | .divu f d a b => Sys2Proof.Machine.execDivu f d a b s
  | .rem f d a b => Sys2Proof.Machine.execRem f d a b s
  | .and f d a b => Sys2Proof.Machine.execAnd f d a b s
  | .or f d a b => Sys2Proof.Machine.execOr f d a b s
  | .xor f d a b => Sys2Proof.Machine.execXor f d a b s
  | .shl f d a b => Sys2Proof.Machine.execShl f d a b s
  | .shr f d a b => Sys2Proof.Machine.execShr f d a b s
  | .sar f d a b => Sys2Proof.Machine.execSar f d a b s
  | .min f d a b => Sys2Proof.Machine.execMin f d a b s
  | .max f d a b => Sys2Proof.Machine.execMax f d a b s
  | .minu f d a b => Sys2Proof.Machine.execMinu f d a b s
  | .maxu f d a b => Sys2Proof.Machine.execMaxu f d a b s
  | .seq f d a b => Sys2Proof.Machine.execSeq f d a b s
  | .slt f d a b => Sys2Proof.Machine.execSlt f d a b s
  | .sltu f d a b => Sys2Proof.Machine.execSltu f d a b s
  | .sel f d a b c => Sys2Proof.Machine.execSel f d a b c s
  | .clz f d a => Sys2Proof.Machine.execClz f d a s
  | .popc f d a => Sys2Proof.Machine.execPopc f d a s
  | .bfx f d a pos len1 => Sys2Proof.Machine.execBfx f d a pos len1 s
  | .bfi f d a pos len1 => Sys2Proof.Machine.execBfi f d a pos len1 s
  | .addsh f d a b sh => Sys2Proof.Machine.execAddsh f d a b sh s
  | .li f d h hi lo => Sys2Proof.Machine.execLi f d h hi lo s
  | .mfs f d sel => Sys2Proof.Machine.execMfs f d sel s
  | .mts f a sel => Sys2Proof.Machine.execMts f a sel s
  | .cpy l d sf s0 piece dk => Sys2Proof.Machine.execCpy l d sf s0 piece dk s
  | .vadd o w => Sys2Proof.Machine.execVadd o w s
  | .vsub o w => Sys2Proof.Machine.execVsub o w s
  | .vmul o w => Sys2Proof.Machine.execVmul o w s
  | .vfma o w => Sys2Proof.Machine.execVfma o w s
  | .vfms o w => Sys2Proof.Machine.execVfms o w s
  | .vexp2 o w => Sys2Proof.Machine.execVexp2 o w s
  | .vlog2 o w => Sys2Proof.Machine.execVlog2 o w s
  | .vrcp o w => Sys2Proof.Machine.execVrcp o w s
  | .vrsq o w => Sys2Proof.Machine.execVrsq o w s
  | .vcvt o w => Sys2Proof.Machine.execVcvt o w s
  | .vreds o w => Sys2Proof.Machine.execVreds o w s
  | .vscan o w => Sys2Proof.Machine.execVscan o w s
  | .vmax o => Sys2Proof.Machine.execVmax o s
  | .vmin o => Sys2Proof.Machine.execVmin o s
  | .vabs o => Sys2Proof.Machine.execVabs o s
  | .vneg o => Sys2Proof.Machine.execVneg o s
  | .vcmp o => Sys2Proof.Machine.execVcmp o s
  | .vsel o => Sys2Proof.Machine.execVsel o s
  | .vand o => Sys2Proof.Machine.execVand o s
  | .vor o => Sys2Proof.Machine.execVor o s
  | .vxor o => Sys2Proof.Machine.execVxor o s
  | .vnot o => Sys2Proof.Machine.execVnot o s
  | .vshl o => Sys2Proof.Machine.execVshl o s
  | .vshr o => Sys2Proof.Machine.execVshr o s
  | .vsar o => Sys2Proof.Machine.execVsar o s
  | .vredm o => Sys2Proof.Machine.execVredm o s
  | .vbcast o => Sys2Proof.Machine.execVbcast o s
  | .viota o => Sys2Proof.Machine.execViota o s
  | .vgauss o => Sys2Proof.Machine.execVgauss o s
  | .vrand o => Sys2Proof.Machine.execVrand o s
  | .kand kd ka kb => Sys2Proof.Machine.execKand kd ka kb s
  | .kor kd ka kb => Sys2Proof.Machine.execKor kd ka kb s
  | .kxor kd ka kb => Sys2Proof.Machine.execKxor kd ka kb s
  | .knot kd ka => Sys2Proof.Machine.execKnot kd ka s
  | .kpop kd ka => Sys2Proof.Machine.execKpop kd ka s
  | .pack o w => Sys2Proof.Machine.execPack o w s
  | .vscale o w => Sys2Proof.Machine.execVscale o w s
  | .swjoin o w => Sys2Proof.Machine.execSwjoin o w s
  | .unpack o => Sys2Proof.Machine.execUnpack o s
  | .bscale o => Sys2Proof.Machine.execBscale o s
  | .perm o => Sys2Proof.Machine.execPerm o s
  | .zip o => Sys2Proof.Machine.execZip o s
  | .unzip o => Sys2Proof.Machine.execUnzip o s
  | .xpose o => Sys2Proof.Machine.execXpose o s
  | .rnsenc o => Sys2Proof.Machine.execRnsenc o s
  | .rnsdec o => Sys2Proof.Machine.execRnsdec o s
  | .cpye o => Sys2Proof.Machine.execCpye o s
  | .swsplit o => Sys2Proof.Machine.execSwsplit o s
  | .ld f sz o => Sys2Proof.Machine.execLd f sz o s
  | .st f sz o => Sys2Proof.Machine.execSt f sz o s
  | .vld d a k disp => Sys2Proof.Machine.execVld d a k disp s
  | .vst d a k disp => Sys2Proof.Machine.execVst d a k disp s
  | .vlds d a k ix esz => Sys2Proof.Machine.execVlds d a k ix esz s
  | .vsts d a k ix esz => Sys2Proof.Machine.execVsts d a k ix esz s
  | .vgth d a k ix esz => Sys2Proof.Machine.execVgth d a k ix esz s
  | .vsct d a k ix esz => Sys2Proof.Machine.execVsct d a k ix esz s
  | .bld o => Sys2Proof.Machine.execBld o s
  | .bst o => Sys2Proof.Machine.execBst o s
  | .atadd o => Sys2Proof.Machine.execAtadd o s
  | .atmin o => Sys2Proof.Machine.execAtmin o s
  | .atmax o => Sys2Proof.Machine.execAtmax o s
  | .atxch o => Sys2Proof.Machine.execAtxch o s
  | .ator o => Sys2Proof.Machine.execAtor o s
  | .atand o => Sys2Proof.Machine.execAtand o s
  | .atcas o => Sys2Proof.Machine.execAtcas o s
  | .atcas2 o => Sys2Proof.Machine.execAtcas2 o s
  | .fence scope kind => Sys2Proof.Machine.execFence scope kind s
  | .cflush d a scope => Sys2Proof.Machine.execCflush d a scope s
  | .cinv d a scope => Sys2Proof.Machine.execCinv d a scope s
  | .pref a level disp => Sys2Proof.Machine.execPref a level disp s
  | .amov d a imm => Sys2Proof.Machine.execAmov d a imm s
  | .ainc d a imm => Sys2Proof.Machine.execAinc d a imm s
  | .caskAlloc d a n => Sys2Proof.Machine.execCaskAlloc d a n s
  | .caskFree d a n => Sys2Proof.Machine.execCaskFree d a n s
  | .setkp key right => Sys2Proof.Machine.execSetkp key right s
  | .mma o => Sys2Proof.Machine.execMma o s
  | .mmag o => Sys2Proof.Machine.execMmag o s
  | .mzero set ef => Sys2Proof.Machine.execMzero set ef s
  | .mcvt o => Sys2Proof.Machine.execMcvt o s
  | .ewr a n => Sys2Proof.Machine.execEwr a n s
  | .placementInstall core ctx => Sys2Proof.Machine.execPlacementInstall core ctx s
  | .erd d n => Sys2Proof.Machine.execErd d n s
  | .cpyq q n => Sys2Proof.Machine.execCpyq q n s
  | .qfence a mask evt => Sys2Proof.Machine.execQfence a mask evt s
  | .rwait a h n8 => Sys2Proof.Machine.execRwait a h n8 s
  | .rfree a h n8 => Sys2Proof.Machine.execRfree a h n8 s
  | .radvP a h n8 => Sys2Proof.Machine.execRadvP a h n8 s
  | .radvC a h n8 => Sys2Proof.Machine.execRadvC a h n8 s
  | .waitt a => Sys2Proof.Machine.execWaitt a s
  | .txput a set ne => Sys2Proof.Machine.execTxput a set ne s
  | .txget a set ne => Sys2Proof.Machine.execTxget a set ne s
  | .txred a b set ne => Sys2Proof.Machine.execTxred a b set ne s
  | .txmc a b set ne => Sys2Proof.Machine.execTxmc a b set ne s
  | .txflush a b all => Sys2Proof.Machine.execTxflush a b all s
  | .txflushP a b all => Sys2Proof.Machine.execTxflushP a b all s
  | .rxpost a b set ne => Sys2Proof.Machine.execRxpost a b set ne s
  | .chsend a set ne => Sys2Proof.Machine.execChsend a set ne s
  | .chrecv a set ne => Sys2Proof.Machine.execChrecv a set ne s
  | .trig a b set opk => Sys2Proof.Machine.execTrig a b set opk s
  | .ctradd a c => Sys2Proof.Machine.execCtradd a c s
  | .ctrsnap a b => Sys2Proof.Machine.execCtrsnap a b s
  | .ntr => Sys2Proof.Machine.execNtr s
  | .task a => Sys2Proof.Machine.execTask a s
  | .taskDone a b => Sys2Proof.Machine.execTaskDone a b s
  | .sync level => Sys2Proof.Machine.execSync level s
  | .phase p => Sys2Proof.Machine.execPhase p s
  | .stepb b tag => Sys2Proof.Machine.execStepb b tag s
  | .stepbRp b tag => Sys2Proof.Machine.execStepbRp b tag s
  | .stepe b tag => Sys2Proof.Machine.execStepe b tag s
  | .digest d a b q evt buf => Sys2Proof.Machine.execDigest d a b q evt buf s
  | .digcmp a b => Sys2Proof.Machine.execDigcmp a b s
  | .prof a n => Sys2Proof.Machine.execProf a n s
  | .evpost c a tag => Sys2Proof.Machine.execEvpost c a tag s
  | .nop => Sys2Proof.Machine.execNop s
  | .bra dr off => Sys2Proof.Machine.execBra dr off s
  | .bz dr f r off => Sys2Proof.Machine.execBz dr f r off s
  | .bnz dr f r off => Sys2Proof.Machine.execBnz dr f r off s
  | .bkall dr k off => Sys2Proof.Machine.execBkall dr k off s
  | .bknone dr k off => Sys2Proof.Machine.execBknone dr k off s
  | .call dr off => Sys2Proof.Machine.execCall dr off s
  | .ret dr => Sys2Proof.Machine.execRet dr s
  | .loop c stop => Sys2Proof.Machine.execLoop c stop s
  | .loopx count stop => Sys2Proof.Machine.execLoopx count stop s
  | .halt => Sys2Proof.Machine.execHalt s
  | .trap code => Sys2Proof.Machine.execTrap code s
  | .rtt dr => Sys2Proof.Machine.execRtt dr s
  | .brk code => Sys2Proof.Machine.execBrk code s
  | .waitev r => Sys2Proof.Machine.execWaitev r s
  | .yield => Sys2Proof.Machine.execYield s
  | .prio c => Sys2Proof.Machine.execPrio c s
  | .ifence => Sys2Proof.Machine.execIfence s
  | .issueSelect core => Sys2Proof.Machine.execIssueSelect core s
  | .stallSwitchCount core => Sys2Proof.Machine.execStallSwitchCount core s
  | .priorityAging core ctx => Sys2Proof.Machine.execPriorityAging core ctx s
  | .fixedResultLand core ctx => Sys2Proof.Machine.execFixedResultLand core ctx s
  | .scoreboardResultLand core ctx n => Sys2Proof.Machine.execScoreboardResultLand core ctx n s
  | .deferredTrapSuspend core ctx => Sys2Proof.Machine.execDeferredTrapSuspend core ctx s
  | .pageWalkComplete core asid va => Sys2Proof.Machine.execPageWalkComplete core asid va s
  | .releaseGo trid => Sys2Proof.Machine.execReleaseGo trid s
  | .shootdownComplete die => Sys2Proof.Machine.execShootdownComplete die s
  | .copyTransfer core => Sys2Proof.Machine.execCopyTransfer core s
  | .copyEntryComplete core ctx q => Sys2Proof.Machine.execCopyEntryComplete core ctx q s
  | .qfenceComplete core ctx q => Sys2Proof.Machine.execQfenceComplete core ctx q s
  | .mmagStart core press => Sys2Proof.Machine.execMmagStart core press s
  | .pressResultInPlace core press => Sys2Proof.Machine.execPressResultInPlace core press s
  | .mzeroComplete core => Sys2Proof.Machine.execMzeroComplete core s
  | .mcvtComplete core => Sys2Proof.Machine.execMcvtComplete core s
  | .rxGload die p => Sys2Proof.Machine.execRxGload die p s
  | .rxGstore die p => Sys2Proof.Machine.execRxGstore die p s
  | .rxGatom die p => Sys2Proof.Machine.execRxGatom die p s
  | .rxGresp die p => Sys2Proof.Machine.execRxGresp die p s
  | .transportOpComplete die opid => Sys2Proof.Machine.execTransportOpComplete die opid s
  | .tcWatchdog die => Sys2Proof.Machine.execTcWatchdog die s
  | .tcTimerExpiry die t => Sys2Proof.Machine.execTcTimerExpiry die t s
  | .tcAdd d a b => Sys2Proof.Machine.execTcAdd d a b s
  | .tcSub d a b => Sys2Proof.Machine.execTcSub d a b s
  | .tcAnd d a b => Sys2Proof.Machine.execTcAnd d a b s
  | .tcOr d a b => Sys2Proof.Machine.execTcOr d a b s
  | .tcXor d a b => Sys2Proof.Machine.execTcXor d a b s
  | .tcShl d a b => Sys2Proof.Machine.execTcShl d a b s
  | .tcShr d a b => Sys2Proof.Machine.execTcShr d a b s
  | .tcSltu d a b => Sys2Proof.Machine.execTcSltu d a b s
  | .tcAddi d a imm => Sys2Proof.Machine.execTcAddi d a imm s
  | .tcAndi d a imm => Sys2Proof.Machine.execTcAndi d a imm s
  | .tcShli d a sh => Sys2Proof.Machine.execTcShli d a sh s
  | .tcShri d a sh => Sys2Proof.Machine.execTcShri d a sh s
  | .tcLi d imm => Sys2Proof.Machine.execTcLi d imm s
  | .tcLis d imm => Sys2Proof.Machine.execTcLis d imm s
  | .tcLds d a imm => Sys2Proof.Machine.execTcLds d a imm s
  | .tcSts d a imm => Sys2Proof.Machine.execTcSts d a imm s
  | .tcLde d imm => Sys2Proof.Machine.execTcLde d imm s
  | .tcLdp d imm => Sys2Proof.Machine.execTcLdp d imm s
  | .tcStp d imm => Sys2Proof.Machine.execTcStp d imm s
  | .tcBeq a b off => Sys2Proof.Machine.execTcBeq a b off s
  | .tcBne a b off => Sys2Proof.Machine.execTcBne a b off s
  | .tcBltu a b off => Sys2Proof.Machine.execTcBltu a b off s
  | .tcJmp off => Sys2Proof.Machine.execTcJmp off s
  | .tcCall off => Sys2Proof.Machine.execTcCall off s
  | .tcRet => Sys2Proof.Machine.execTcRet s
  | .tcWaite d => Sys2Proof.Machine.execTcWaite d s
  | .tcResend d a b => Sys2Proof.Machine.execTcResend d a b s
  | .tcAck d apply => Sys2Proof.Machine.execTcAck d apply s
  | .tcNack d noTarget => Sys2Proof.Machine.execTcNack d noTarget s
  | .tcSetpath a b => Sys2Proof.Machine.execTcSetpath a b s
  | .tcPathdown a b => Sys2Proof.Machine.execTcPathdown a b s
  | .tcSetwin a b => Sys2Proof.Machine.execTcSetwin a b s
  | .tcTmarm a b => Sys2Proof.Machine.execTcTmarm a b s
  | .tcTmcan d a => Sys2Proof.Machine.execTcTmcan d a s
  | .tcPost d a b => Sys2Proof.Machine.execTcPost d a b s
  | .tcHalt => Sys2Proof.Machine.execTcHalt s
  | .stepbEvaluation die b => Sys2Proof.Machine.execStepbEvaluation die b s
  | .stepeClose die b => Sys2Proof.Machine.execStepeClose die b s
  | .ntrAnswer core ctx => Sys2Proof.Machine.execNtrAnswer core ctx s
  | .taskSequencerDispatch clu => Sys2Proof.Machine.execTaskSequencerDispatch clu s
  | .taskEnd core ctx => Sys2Proof.Machine.execTaskEnd core ctx s
  | .syncOpen core ctx => Sys2Proof.Machine.execSyncOpen core ctx s
  | .digcmpResolve core ctx => Sys2Proof.Machine.execDigcmpResolve core ctx s
  | .launchPacket q => Sys2Proof.Machine.execLaunchPacket q s
  | .waitPacket q => Sys2Proof.Machine.execWaitPacket q s
  | .waitSatisfied q => Sys2Proof.Machine.execWaitSatisfied q s
  | .signalPacket q => Sys2Proof.Machine.execSignalPacket q s
  | .markPacket q => Sys2Proof.Machine.execMarkPacket q s
  | .launchComplete q => Sys2Proof.Machine.execLaunchComplete q s
  | .softpreBoundary core ctx => Sys2Proof.Machine.execSoftpreBoundary core ctx s
  | .softpreTimeout core ctx => Sys2Proof.Machine.execSoftpreTimeout core ctx s
  | .biasHoldExpiry page => Sys2Proof.Machine.execBiasHoldExpiry page s
  | .registerWrite r v => Sys2Proof.Machine.execRegisterWrite r v s
  | .pageMapped asid svc => Sys2Proof.Machine.execPageMapped asid svc s
  | .pageRequestDeclined asid va => Sys2Proof.Machine.execPageRequestDeclined asid va s
  | .shootdown die w0 w1 w2 => Sys2Proof.Machine.execShootdown die w0 w1 w2 s
  | .caskmissClear clu => Sys2Proof.Machine.execCaskmissClear clu s
  | .pressSelfCheck core press pass => Sys2Proof.Machine.execPressSelfCheck core press pass s
  | .rxPlace die p => Sys2Proof.Machine.execRxPlace die p s
  | .rxReduce die p => Sys2Proof.Machine.execRxReduce die p s
  | .rxChan die p => Sys2Proof.Machine.execRxChan die p s
  | .rxFlushp die p => Sys2Proof.Machine.execRxFlushp die p s
  | .messageHeaderMatch die h => Sys2Proof.Machine.execMessageHeaderMatch die h s
  | .channelCredit asid chan peer => Sys2Proof.Machine.execChannelCredit asid chan peer s
  | .collBrokenNotice asid group => Sys2Proof.Machine.execCollBrokenNotice asid group s
  | .packetAck die flow psns bytes marks rtt => Sys2Proof.Machine.execPacketAck die flow psns bytes marks rtt s
  | .packetNack die flow psn code => Sys2Proof.Machine.execPacketNack die flow psn code s
  | .retryBackoffExpiry die flow psn => Sys2Proof.Machine.execRetryBackoffExpiry die flow psn s
  | .rtoExpiry die flow => Sys2Proof.Machine.execRtoExpiry die flow s
  | .pathProbe die => Sys2Proof.Machine.execPathProbe die s
  | .probeAnswer die peer slot rtt => Sys2Proof.Machine.execProbeAnswer die peer slot rtt s
  | .portLinkLoss die port => Sys2Proof.Machine.execPortLinkLoss die port s
  | .txdstatClr die => Sys2Proof.Machine.execTxdstatClr die s
  | .tcStart die => Sys2Proof.Machine.execTcStart die s
  | .tcStop die => Sys2Proof.Machine.execTcStop die s
  | .tcClrreg die => Sys2Proof.Machine.execTcClrreg die s
  | .tcMail die w0 w1 => Sys2Proof.Machine.execTcMail die w0 w1 s
  | .blockEntryWrite die b words => Sys2Proof.Machine.execBlockEntryWrite die b words s
  | .doorbellWrite vi q w => Sys2Proof.Machine.execDoorbellWrite vi q w s
  | .queueRegister vi q die qcb => Sys2Proof.Machine.execQueueRegister vi q die qcb s
  | .dispatchNew die w0 rec logidx save donep => Sys2Proof.Machine.execDispatchNew die w0 rec logidx save donep s
  | .dispatchResume die w0 save donep => Sys2Proof.Machine.execDispatchResume die w0 save donep s
  | .dispatchSoftpre die w0 save donep => Sys2Proof.Machine.execDispatchSoftpre die w0 save donep s
  | .dispatchHardpre die w0 save donep keep => Sys2Proof.Machine.execDispatchHardpre die w0 save donep keep s
  | .dispatchRemap die w0 donep w5 => Sys2Proof.Machine.execDispatchRemap die w0 donep w5 s
  | .dispatchWalk die w0 save donep => Sys2Proof.Machine.execDispatchWalk die w0 save donep s
  | .traceTailWrite die v => Sys2Proof.Machine.execTraceTailWrite die v s
  | .hostHdmRequest addr r => Sys2Proof.Machine.execHostHdmRequest addr r s
  | .bisnpResponse pa dirty => Sys2Proof.Machine.execBisnpResponse pa dirty s
  | .hostSnoop line k => Sys2Proof.Machine.execHostSnoop line k s
  | .hostCompletion core ctx va store c => Sys2Proof.Machine.execHostCompletion core ctx va store c s
  | .linkDown => Sys2Proof.Machine.execLinkDown s
  | .hlctlRearm => Sys2Proof.Machine.execHlctlRearm s
  | .eccErrorDetected site uc syndrome => Sys2Proof.Machine.execEccErrorDetected site uc syndrome s
  | .hbmRowRemap stack chan row spare => Sys2Proof.Machine.execHbmRowRemap stack chan row spare s
  | .hbmChannelSpare stack chan spare => Sys2Proof.Machine.execHbmChannelSpare stack chan spare s
  | .coldReset => Sys2Proof.Machine.execColdReset s
  | .warmReset => Sys2Proof.Machine.execWarmReset s
  | .fwReload w => Sys2Proof.Machine.execFwReload w s
  | .fwfloorSet w => Sys2Proof.Machine.execFwfloorSet w s
  | .powerStateRequest st => Sys2Proof.Machine.execPowerStateRequest st s
  | .powerGovernor avg gate => Sys2Proof.Machine.execPowerGovernor avg gate s
  | .telpwrClearPeak => Sys2Proof.Machine.execTelpwrClearPeak s
  | .thermalGate die temp => Sys2Proof.Machine.execThermalGate die temp s
  | .thermalGateRelease t0 t1 t2 t3 => Sys2Proof.Machine.execThermalGateRelease t0 t1 t2 t3 s
  | .thermalTrip die temp => Sys2Proof.Machine.execThermalTrip die temp s
  | .rmaReadRequest die job src off len rkey => Sys2Proof.Machine.execRmaReadRequest die job src off len rkey s
  | .rmaReadResponse die opid bytes fkind => Sys2Proof.Machine.execRmaReadResponse die opid bytes fkind s
  | .remotePageMappedReport core stamp trid => Sys2Proof.Machine.execRemotePageMappedReport core stamp trid s
  | .collGroupReset asid group => Sys2Proof.Machine.execCollGroupReset asid group s
  | .taskEndedByFirmware trid => Sys2Proof.Machine.execTaskEndedByFirmware trid s
  | .asidRetire asid => Sys2Proof.Machine.execAsidRetire asid s
  | .hostLinkUp cxl => Sys2Proof.Machine.execHostLinkUp cxl s
  | .portLinkUp die port => Sys2Proof.Machine.execPortLinkUp die port s
  | .powerLoss => Sys2Proof.Machine.execPowerLoss s
  | .fwReloadComplete signed => Sys2Proof.Machine.execFwReloadComplete signed s

end Sys2Proof.Machine
end

