-- ==== Sys2Proof/Machine/Step.lean ====
section
/-! DEFINITION. One step of the machine, and the state that fetches a given transport-core word next. -/

namespace Sys2Proof.Machine

open Sys2Proof

/-- The end of an agent's turn. -/
def afterTurn : Host.Outcome State Fault Refusal → Host.Outcome State Fault Refusal
  | .next t => .next t.passTurn
  | .fault f => .fault f
  | .refused r => .refused r

/-- One step: the first event of the agenda; else the turn of the agent in focus, which for a transport core is the
instruction that its word decodes to, and then the turn passes on (log 1). -/
def step (s : State) : Host.Outcome State Fault Refusal :=
  match s.agenda with
  | i :: l => exec i { s with agenda := l }
  | [] => match s.tcInstr with
    | some i => afterTurn (exec i s)
    | none => .next s.turn.passTurn

/-- The state in which the transport core of die 0 runs and fetches the word next; nothing stands in the agenda. Words of the
core's program come from an image loaded from outside (R413): this is that load. -/
def State.withFetchWord (s : State) (_nbits w : Nat) : State :=
  let s := s.updTc 0 fun t => { t with imem := tset t.imem t.pc.toNat (BitVec.ofNat 32 w), state := 1, busy := 0 }
  { s with focus := .tc 0, agenda := [], board := { s.board with boot := 6, powered := true } }

end Sys2Proof.Machine
end

