-- ==== Sys2Proof/Safety.lean ====
section
/-! DEFINITION. What counts as a safe state and a safe run: memories in their canonical form, and runs that end in no fault and
no refusal. And the words in which statements about issue are made: when a context's issue is free, and the state after a
one-slot bundle that only puts results in flight. -/

namespace Sys2Proof

open Machine

/-- Every memory of a state is in its canonical form: device memory and the buffers of each core. -/
def Safe (s : State) : Prop :=
  Memory.wf s.mem ∧ ∀ k ∈ s.cores, Memory.wf k.2.wb ∧ Memory.wf k.2.ab ∧ Memory.wf k.2.cb

/-- Whether n steps from a state all end in a next state. -/
def runs : Nat → State → Bool
  | 0, _ => true
  | n + 1, s => match step s with
    | .next t => runs n t
    | _ => false

namespace Machine

/-- Context w holds issue on the core in focus, nothing stops its issue, no scoreboarded result is in flight to it, and its
shadow buffer has room for two more results if it runs a handler (R221, R233, R364, R378). -/
def Free (s : State) (w : At) : Prop :=
  s.cur = some w ∧ (s.ctx w).mayIssue = true ∧ (s.ctx w).pipe.sb = [] ∧
  ((s.ctx w).inh = false ∨
    (s.ctx w).pipe.inflight.length + (s.ctx w).pipe.ntr.length + (s.ctx w).pipe.shadow.length + 2 ≤ 64)

/-- A free context with no result in flight and no open loop, so that R234 and R256 ask nothing of its next slot. -/
def Quiet (s : State) (w : At) : Prop :=
  Free s w ∧ (s.ctx w).pipe.inflight = [] ∧ (s.ctx w).pipe.loops = []

/-- Whether the bundle at the program counter is the kernel start of a task with a loop record (R366). -/
def State.atKernel (s : State) (w : At) : Bool :=
  match s.taskOf w with
  | some t => t.lren && (s.ctx w).pipe.pc == t.codebase + BitVec.ofNat 64 (4 * t.ker)
  | none => false

/-- A context after its bundle has issued and put results in flight: what was due has landed, the count, the loops and the
program counter are the given ones, and k kernel iterations are counted. -/
def Ctx.moved (c0 : Ctx) (rs : List Res) (k count : Nat) (next : List LoopEnt × W64) : Ctx :=
  let c := c0.landTo c0.pipe.count
  { c with
    pipe := { c.pipe.push c.pipe.count rs with count := count, loops := next.1, pc := next.2 }
    sched := { c.sched with run := .ready, stalled := 0, readyFor := 0, aged := false, kiter := c.sched.kiter + k,
                            preempt := c.sched.preempt.map fun q => { q with issued := true } } }

/-- A context after a bundle of nw words that takes no branch: the count has risen by one and the program counter is at the next
bundle (R231, R251, R256). -/
def Ctx.issued (c : Ctx) (nw : Nat) (rs : List Res) (k : Nat) : Ctx :=
  c.moved rs k (c.pipe.count + 1) (closeLoops c.pipe.pc (c.pipe.pc + BitVec.ofNat 64 (4 * nw)) c.pipe.loops)

/-- Kernel iterations that the next bundle counts (R366). -/
def State.kernels (s : State) (w : At) : Nat := if s.atKernel w then 1 else 0

/-- The state after a bundle of nw words whose only effect is to put results in flight: nothing but context w changes. -/
def State.issued (s : State) (w : At) (nw : Nat) (rs : List Res) : State := s.updCtx w fun c => c.issued nw rs (s.kernels w)

/-- The state after a bundle that puts results in flight and goes to a place, with a count: nothing but context w changes. -/
def State.moved (s : State) (w : At) (rs : List Res) (count : Nat) (next : List LoopEnt × W64) : State :=
  s.updCtx w fun c => c.moved rs (s.kernels w) count next

end Machine

end Sys2Proof
end

