-- ==== Sys2Proof/WellFormed.lean ====
section
/-! DEFINITION. Which instructions are well-formed: a slot that check 3 of R221 does not find ILLEGAL, a transport-core
instruction, and an event that names units the device has (R11, R12, R217, R222, R269). -/

namespace Sys2Proof

/-- A logical core of the device. -/
def okCore (c : Nat) : Bool := c < 512
/-- A context of a core. -/
def okCtx (core ctx : Nat) : Bool := core < 512 && ctx < 4
/-- A die. -/
def okDie (d : Nat) : Bool := d < 4
/-- A cluster. -/
def okClu (c : Nat) : Bool := c < 8
/-- A press of a core. -/
def okPress (core p : Nat) : Bool := core < 512 && p < 2
/-- A virtual interface. -/
def okVi (v : Nat) : Bool := v < 64
/-- An ASID. -/
def okAsid (a : Nat) : Bool := a < 1024
/-- A queue by its interface and number. -/
def okQueue (q : Nat) : Bool := q < 64 * 512
/-- A port of a die. -/
def okPort (p : Nat) : Bool := p < 18
/-- A named error site. -/
def okSite : EccSite → Bool
  | .regfile c x => okCtx c x
  | .buffer c x sp _ => okCtx c x && sp < 3
  | .l1d c _ => okCore c
  | .l1i c _ => okCore c
  | .cluster u _ => okClu u
  | .cask u _ => okClu u
  | .l2 _ => true
  | .hbm pa => Machine.isHbm pa
  | .press c p x => okPress c p && x < 4
  | .ibuf c x _ => okCtx c x
  | .dieTlb d a _ => okDie d && okAsid a
  | .unitTlb d a _ => okDie d && okAsid a
  | .walk d _ => okDie d
  | .tlb c a _ => okCore c && okAsid a
  | .extent c x n => okCtx c x && n < 8
  | .engine c x => okCtx c x
  | .tcmem d _ => okDie d
/-- A named device register. -/
def okReg : DevReg → Bool
  | .caskctl c => okClu c | .caskmiss c => okClu c
  | .tcctl d => okDie d | .tcstat d => okDie d | .tccnt d => okDie d | .tcwdog d => okDie d
  | .txdstat d => okDie d | .txcnt0 d => okDie d | .txcnt1 d => okDie d | .txcnt2 d => okDie d
  | .trbase d => okDie d | .trctl d => okDie d | .trhead d => okDie d | .trtail d => okDie d
  | .dcnt d k => okDie d && 1 ≤ k && k ≤ 10
  | .vicfg v w => okVi v && w < 8
  | .errcnt d u => okDie d && 1 ≤ u && u ≤ 11
  | .errlost d => okDie d
  | .tcimem d i => okDie d && i < 16384
  | .tcsmem d i => okDie d && i < 32768
  | .ptsize a => okAsid a
  | .jobId a => okAsid a
  | .chanWord a i => okAsid a && i < 1024
  | .groupAddr d g => okDie d && 1 ≤ g && g < 256
  | _ => true

/-- A host request to an interface and to bytes that there are. -/
def okReq : HostReq → Bool
  | .bar0Read vi _ => okVi vi
  | .bar0Write vi _ => okVi vi
  | _ => true
/-- A step of the page service on words of tables and whole frames. -/
def okSvc : PageSvc → Bool
  | .mapped _ => true
  | .leaf pa _ => pa % 8 == 0
  | .writeBack f => f % 4096 == 0
  | .copy a b => a % 4096 == 0 && b % 4096 == 0
/-- A snoop of bytes within its line. -/
def okSnoop : Snoop → Bool
  | .store off bs => off + bs.length ≤ 128
  | _ => true

/-- Whether an event names units that the device has. -/
def okEvent : Instr → Bool
  | .placementInstall core ctx => okCtx core ctx
  | .issueSelect core => okCore core
  | .stallSwitchCount core => okCore core
  | .priorityAging core ctx => okCtx core ctx
  | .fixedResultLand core ctx => okCtx core ctx
  | .scoreboardResultLand core ctx _ => okCtx core ctx
  | .deferredTrapSuspend core ctx => okCtx core ctx
  | .pageWalkComplete core asid _ => okCore core && okAsid asid
  | .shootdownComplete die => okDie die
  | .copyTransfer core => okCore core
  | .copyEntryComplete core ctx q => okCtx core ctx && q < 4
  | .qfenceComplete core ctx q => okCtx core ctx && q < 4
  | .mmagStart core press => okPress core press
  | .pressResultInPlace core press => okPress core press
  | .mzeroComplete core => okCore core
  | .mcvtComplete core => okCore core
  | .rxGload die _ => okDie die
  | .rxGstore die _ => okDie die
  | .rxGatom die _ => okDie die
  | .rxGresp die _ => okDie die
  | .transportOpComplete die _ => okDie die
  | .tcWatchdog die => okDie die
  | .tcTimerExpiry die t => okDie die && t < 256
  | .stepbEvaluation die b => okDie die && b < 256
  | .stepeClose die b => okDie die && b < 256
  | .ntrAnswer core ctx => okCtx core ctx
  | .taskSequencerDispatch clu => okClu clu
  | .taskEnd core ctx => okCtx core ctx
  | .syncOpen core ctx => okCtx core ctx
  | .digcmpResolve core ctx => okCtx core ctx
  | .launchPacket q => okQueue q
  | .waitPacket q => okQueue q
  | .waitSatisfied q => okQueue q
  | .signalPacket q => okQueue q
  | .markPacket q => okQueue q
  | .launchComplete q => okQueue q
  | .softpreBoundary core ctx => okCtx core ctx
  | .softpreTimeout core ctx => okCtx core ctx
  | .registerWrite r _ => okReg r
  | .pageMapped asid svc => okAsid asid && okSvc svc
  | .pageRequestDeclined asid _ => okAsid asid
  | .shootdown die _ _ _ => okDie die
  | .caskmissClear clu => okClu clu
  | .pressSelfCheck core press _ => okPress core press
  | .rxPlace die _ => okDie die
  | .rxReduce die _ => okDie die
  | .rxChan die _ => okDie die
  | .rxFlushp die _ => okDie die
  | .messageHeaderMatch die _ => okDie die
  | .channelCredit asid chan _ => okAsid asid && chan < 256
  | .collBrokenNotice asid _ => okAsid asid
  | .packetAck die _ _ _ _ _ => okDie die
  | .packetNack die _ _ _ => okDie die
  | .retryBackoffExpiry die _ _ => okDie die
  | .rtoExpiry die _ => okDie die
  | .pathProbe die => okDie die
  | .probeAnswer die peer slot _ => okDie die && peer < 8192 && slot < 64
  | .portLinkLoss die port => okDie die && okPort port
  | .txdstatClr die => okDie die
  | .tcStart die => okDie die
  | .tcStop die => okDie die
  | .tcClrreg die => okDie die
  | .tcMail die _ _ => okDie die
  | .blockEntryWrite die b _ => okDie die && b < 256
  | .doorbellWrite vi q _ => okVi vi && q < 512
  | .queueRegister vi q die _ => okVi vi && q < 512 && okDie die
  | .dispatchNew die _ _ _ _ _ => okDie die
  | .dispatchResume die _ _ _ => okDie die
  | .dispatchSoftpre die _ _ _ => okDie die
  | .dispatchHardpre die _ _ _ _ => okDie die
  | .dispatchRemap die _ _ _ => okDie die
  | .dispatchWalk die _ _ _ => okDie die
  | .traceTailWrite die _ => okDie die
  | .hostHdmRequest _ r => okReq r
  | .hostSnoop _ k => okSnoop k
  | .hostCompletion core ctx _ _ _ => okCtx core ctx
  | .eccErrorDetected site _ _ => okSite site
  | .fwReloadComplete target => target < 4
  | .hbmRowRemap stack chan _ spare => stack < 12 && chan < 32 && spare < 64
  | .hbmChannelSpare stack chan spare => stack < 12 && chan < 32 && spare < 2
  | .thermalGate die _ => okDie die
  | .thermalTrip die _ => okDie die
  | .rmaReadRequest die _ _ _ _ _ => okDie die
  | .rmaReadResponse die _ _ _ => okDie die
  | .remotePageMappedReport core _ _ => okCore core
  | .collGroupReset asid _ => okAsid asid
  | .asidRetire asid => okAsid asid
  | .portLinkUp die port => okDie die && okPort port
  | _ => true

/-- Well-formedness. -/
def wellFormed (i : Instr) : Bool :=
  match Machine.slotOf i with
  | some sl => !sl.ill
  | none => okEvent i

end Sys2Proof
end

