-- ==== Sys2Proof/Certificates/Slice0/Obligations.lean ====
section
/-! DEFINITION. The statements for the provers, and the rules of the spec that they quote, written as functions. -/

namespace Sys2Proof.Claims

open Sys2Proof Sys2Proof.Machine

/-! ## Rules of the scalar lanes (R240 to R244) -/

/-- The integer that a register holds, unsigned. -/
def u (x : W64) : Nat := x.toNat

/-- File, destination, latency and value of a scalar instruction on registers r, where it completes: a shift amount of the
I-form below 64, a bit field inside the register, a divisor that is not 0 (R223, R241 to R244). -/
def scalarRule (r : Regs) : Instr → Option (SFile × R5 × Nat × W64)
  | .add f d a b => some (f, d, 1, r.getS f a + r.opd f b)
  | .sub f d a b => some (f, d, 1, r.getS f a - r.getS f b)
  | .mul f d a b => some (f, d, 3, r.getS f a * r.opd f b)
  | .mulh f d a b => some (f, d, 3, BitVec.ofInt 64 ((r.getS f a).toInt * (r.getS f b).toInt / 2 ^ 64))
  | .mulhu f d a b => some (f, d, 3, BitVec.ofNat 64 (u (r.getS f a) * u (r.getS f b) / 2 ^ 64))
  | .div f d a b =>
    if r.getS f b = 0 then none else some (f, d, 18, BitVec.ofInt 64 (Int.tdiv (r.getS f a).toInt (r.getS f b).toInt))
  | .divu f d a b => if r.getS f b = 0 then none else some (f, d, 18, BitVec.ofNat 64 (u (r.getS f a) / u (r.getS f b)))
  | .rem f d a b =>
    if r.getS f b = 0 then none else some (f, d, 18, BitVec.ofInt 64 (Int.tmod (r.getS f a).toInt (r.getS f b).toInt))
  | .and f d a b => some (f, d, 1, r.getS f a &&& r.opd f b)
  | .or f d a b => some (f, d, 1, r.getS f a ||| r.opd f b)
  | .xor f d a b => some (f, d, 1, r.getS f a ^^^ r.opd f b)
  | .shl f d a (.reg b) => some (f, d, 1, r.getS f a <<< (u (r.getS f b) % 64))
  | .shl f d a (.imm n) => if n.toNat < 64 then some (f, d, 1, r.getS f a <<< n.toNat) else none
  | .shr f d a (.reg b) => some (f, d, 1, r.getS f a >>> (u (r.getS f b) % 64))
  | .shr f d a (.imm n) => if n.toNat < 64 then some (f, d, 1, r.getS f a >>> n.toNat) else none
  | .sar f d a (.reg b) => some (f, d, 1, (r.getS f a).sshiftRight (u (r.getS f b) % 64))
  | .sar f d a (.imm n) => if n.toNat < 64 then some (f, d, 1, (r.getS f a).sshiftRight n.toNat) else none
  | .min f d a b => some (f, d, 1, if (r.getS f a).toInt ≤ (r.opd f b).toInt then r.getS f a else r.opd f b)
  | .max f d a b => some (f, d, 1, if (r.getS f a).toInt ≤ (r.opd f b).toInt then r.opd f b else r.getS f a)
  | .minu f d a b => some (f, d, 1, if u (r.getS f a) ≤ u (r.opd f b) then r.getS f a else r.opd f b)
  | .maxu f d a b => some (f, d, 1, if u (r.getS f a) ≤ u (r.opd f b) then r.opd f b else r.getS f a)
  | .seq f d a b => some (f, d, 1, if r.getS f a = r.opd f b then 1 else 0)
  | .slt f d a b => some (f, d, 1, if (r.getS f a).toInt < (r.opd f b).toInt then 1 else 0)
  | .sltu f d a b => some (f, d, 1, if u (r.getS f a) < u (r.opd f b) then 1 else 0)
  | .sel f d a b c => some (f, d, 1, if r.getS f c = 0 then r.getS f b else r.getS f a)
  | .clz f d a => some (f, d, 1, BitVec.ofNat 64 (if r.getS f a = 0 then 64 else 63 - Nat.log2 (u (r.getS f a))))
  | .popc f d a =>
    some (f, d, 1, BitVec.ofNat 64 ((List.range 64).filter fun i => (r.getS f a).getLsbD i).length)
  | .bfx f d a pos len1 =>
    if pos.toNat + len1.toNat + 1 ≤ 64 then
      some (f, d, 1, BitVec.ofNat 64 (u (r.getS f a) / 2 ^ pos.toNat % 2 ^ (len1.toNat + 1)))
    else none
  | .bfi f d a pos len1 =>
    let m := BitVec.ofNat 64 (2 ^ (len1.toNat + 1) - 1)
    if pos.toNat + len1.toNat + 1 ≤ 64 then
      some (f, d, 1, (r.getS f d &&& ~~~(m <<< pos.toNat)) ||| ((r.getS f a &&& m) <<< pos.toNat))
    else none
  | .addsh f d a b sh => some (f, d, 1, r.getS f a + (r.getS f b <<< sh.toNat))
  | .li f d false hi lo => some (f, d, 1, (hi ++ lo : BitVec 47).signExtend 64)
  | .li f d true hi lo =>
    if hi.toNat ≤ 1 then
      some (f, d, 1, (BitVec.ofNat 32 ((hi ++ lo : BitVec 47).toNat) ++ (r.getS f d).setWidth 32 : W64))
    else none
  | _ => none

/-- Words of a scalar instruction. -/
def scalarWords : Instr → Nat
  | .li _ _ _ _ _ => 2
  | _ => 1

/-! ## Rules of the masks and address registers (R275, R302) -/

/-- File, register, latency and value of the mask operations and of AMOV and AINC, where their registers exist. -/
def maskAddrRule (r : Regs) : Instr → Option (RFile × Nat × Nat × W64)
  | .kand kd ka kb => some (.k, kd.toNat, 3, r.getK ka.toNat &&& r.getK kb.toNat)
  | .kor kd ka kb => some (.k, kd.toNat, 3, r.getK ka.toNat ||| r.getK kb.toNat)
  | .kxor kd ka kb => some (.k, kd.toNat, 3, r.getK ka.toNat ^^^ r.getK kb.toNat)
  | .knot kd ka => some (.k, kd.toNat, 3, ~~~(r.getK ka.toNat))
  | .kpop kd ka => some (.k, kd.toNat, 3, BitVec.ofNat 64 ((List.range 64).filter fun i => (r.getK ka.toNat).getLsbD i).length)
  | .amov d a imm => if d.toNat < 16 then some (.a, d.toNat, 1, r.getA a.toNat + imm.signExtend 64) else none
  | .ainc d a imm => if d.toNat < 16 then some (.a, d.toNat, 1, r.getA a.toNat + 256#64 * imm.signExtend 64) else none
  | _ => none

/-! ## Rules of the VA lane (R270 to R274, R276, R280) -/

/-- Element i of a register under a slot's format. -/
def el (o : VOpd) (r : Regs) (n : R5) (i : Nat) : Nat := elem (r.getV n.toNat) (fmtWidth o.fmt.toNat) i

/-- A float result rounded to the slot's format (R267). -/
def rnd (o : VOpd) (q : Rounding) (i : Nat) (x : XR) : Nat := roundTo o.fmt.toNat q.rm q.sat q.key i x

/-- The value of an element of a float format. -/
def fv (o : VOpd) (x : Nat) : Machine.Num := elemValue o.fmt.toNat x

/-- The result of an arithmetic instruction on one element: exact in the reals and rounded once for a float format, modulo the
width or clamped for an integer format, by residues for RNS3 (R270). -/
def arithRule (o : VOpd) (q : Rounding) (i : Nat) (fl : Machine.Num) (int : Int) (rns : Nat) : Nat :=
  if o.fmt = 10 then rns else if o.fmt.toNat ≤ 2 then rnd o q i fl.toXR else intOut o.fmt.toNat q.sat int

/-- Operands, extension, latency, and element i of the result, of the instructions that write each active element of vd from
the elements of the same number. The format is one of those the rule names. -/
def elementRule (q : Rounding) (r : Regs) : Instr → Option (VOpd × Option Rnd × Nat × (Nat → Nat))
  | .vadd o x => if fmtF o.fmt.toNat || fmtI o.fmt.toNat || o.fmt == 10 then some (o, x, 3, fun i =>
      let a := el o r o.va i; let b := el o r o.vb i
      arithRule o q i (Machine.Num.add q.zneg (fv o a) (fv o b)) (intElem o.fmt.toNat a + intElem o.fmt.toNat b) (rnsAdd a b)) else none
  | .vsub o x => if fmtF o.fmt.toNat || fmtI o.fmt.toNat || o.fmt == 10 then some (o, x, 3, fun i =>
      let a := el o r o.va i; let b := el o r o.vb i
      arithRule o q i (Machine.Num.add q.zneg (fv o a) (fv o b).neg) (intElem o.fmt.toNat a - intElem o.fmt.toNat b) (rnsSub a b)) else none
  | .vmul o x => if fmtF o.fmt.toNat || fmtI o.fmt.toNat || o.fmt == 10 then some (o, x, 3, fun i =>
      let a := el o r o.va i; let b := el o r o.vb i
      arithRule o q i (Machine.Num.mul (fv o a) (fv o b)) (intElem o.fmt.toNat a * intElem o.fmt.toNat b) (rnsMul a b)) else none
  | .vfma o x => if fmtF o.fmt.toNat || fmtI o.fmt.toNat || o.fmt == 10 then some (o, x, 4, fun i =>
      let a := el o r o.va i; let b := el o r o.vb i; let c := el o r o.vd i
      arithRule o q i (Machine.Num.add q.zneg (Machine.Num.mul (fv o a) (fv o b)) (fv o c))
        (intElem o.fmt.toNat a * intElem o.fmt.toNat b + intElem o.fmt.toNat c) (rnsAdd (rnsMul a b) c)) else none
  | .vfms o x => if fmtF o.fmt.toNat || fmtI o.fmt.toNat || o.fmt == 10 then some (o, x, 4, fun i =>
      let a := el o r o.va i; let b := el o r o.vb i; let c := el o r o.vd i
      arithRule o q i (Machine.Num.add q.zneg (Machine.Num.mul (fv o a) (fv o b)) (fv o c).neg)
        (intElem o.fmt.toNat a * intElem o.fmt.toNat b - intElem o.fmt.toNat c) (rnsSub (rnsMul a b) c)) else none
  | .vexp2 o x => if fmtF o.fmt.toNat && o.vb == 0 then some (o, x, 6, fun i => rnd o q i (exp2XR (fv o (el o r o.va i)))) else none
  | .vlog2 o x => if fmtF o.fmt.toNat && o.vb == 0 then some (o, x, 6, fun i => rnd o q i (log2XR (fv o (el o r o.va i)))) else none
  | .vrcp o x => if fmtF o.fmt.toNat && o.vb == 0 then some (o, x, 6, fun i => rnd o q i (rcpXR (fv o (el o r o.va i)))) else none
  | .vrsq o x => if fmtF o.fmt.toNat && o.vb == 0 then some (o, x, 6, fun i => rnd o q i (rsqXR (fv o (el o r o.va i)))) else none
  | .vmax o => if fmtF o.fmt.toNat || fmtI o.fmt.toNat then some (o, none, 3, fun i =>
      let a := el o r o.va i; let b := el o r o.vb i
      arithRule o q i (maxNum (fv o a) (fv o b)) (max (intElem o.fmt.toNat a) (intElem o.fmt.toNat b)) 0) else none
  | .vmin o => if fmtF o.fmt.toNat || fmtI o.fmt.toNat then some (o, none, 3, fun i =>
      let a := el o r o.va i; let b := el o r o.vb i
      arithRule o q i (minNum (fv o a) (fv o b)) (min (intElem o.fmt.toNat a) (intElem o.fmt.toNat b)) 0) else none
  | .vabs o => if (fmtF o.fmt.toNat || fmtS o.fmt.toNat) && o.vb == 0 then some (o, none, 3, fun i =>
      let a := el o r o.va i
      arithRule o q i (fv o a).abs |intElem o.fmt.toNat a| 0) else none
  | .vneg o => if (fmtF o.fmt.toNat || fmtS o.fmt.toNat) && o.vb == 0 then some (o, none, 3, fun i =>
      let a := el o r o.va i
      arithRule o q i (fv o a).neg (-(intElem o.fmt.toNat a)) 0) else none
  | .vand o => if o.fmt == 9 then some (o, none, 3, fun i => el o r o.va i &&& el o r o.vb i) else none
  | .vor o => if o.fmt == 9 then some (o, none, 3, fun i => el o r o.va i ||| el o r o.vb i) else none
  | .vxor o => if o.fmt == 9 then some (o, none, 3, fun i => el o r o.va i ^^^ el o r o.vb i) else none
  | .vnot o => if o.fmt == 9 && o.vb == 0 then some (o, none, 3, fun i => 2 ^ 32 - 1 - el o r o.va i) else none
  | .vshl o => if fmtS o.fmt.toNat then some (o, none, 3, fun i =>
      let w := fmtWidth o.fmt.toNat
      el o r o.va i * 2 ^ (el o r o.vb i % w) % 2 ^ w) else none
  | .vshr o => if fmtS o.fmt.toNat then some (o, none, 3, fun i =>
      el o r o.va i / 2 ^ (el o r o.vb i % fmtWidth o.fmt.toNat)) else none
  | .vsar o => if fmtS o.fmt.toNat then some (o, none, 3, fun i =>
      let w := fmtWidth o.fmt.toNat
      intBits (intElem o.fmt.toNat (el o r o.va i) / (2 : Int) ^ (el o r o.vb i % w)) w) else none
  | .vbcast o => if fmtBits o.fmt.toNat then some (o, none, 3, fun _ => el o r o.va o.vb.toNat) else none
  | .viota o => if (fmtF o.fmt.toNat || o.fmt == 8 || o.fmt == 9) && o.va == 0 && o.vb == 0 then some (o, none, 3, fun i =>
      if o.fmt.toNat ≤ 2 then roundNE o.fmt.toNat (Machine.Num.ofInt i) else i) else none
  | _ => none

/-- RM of an extension is one of 0 to 4, and SAT is clear for RNS3 (R269). -/
def rndGood (o : VOpd) : Option Rnd → Prop
  | none => True
  | some x => x.rm.toNat ≤ 4 ∧ (x.sat = true → o.fmt ≠ 10)

end Sys2Proof.Claims

open Sys2Proof Sys2Proof.Machine Sys2Proof.Claims

/-! ## The scalar lanes, masks and address registers -/

/-- R241 to R244: where context w's issue is free, a scalar arithmetic, logic, shift, compare, select, bit-field or LI slot
completes: its result, as R241 to R244 give it on the registers with every due result landed, is in flight to its destination
register with its latency, the program counter and the count advance, and nothing else of the machine changes. -/
def Obligations.ScalarResults : Prop :=
  ∀ (s : State) (w : At) (i : Instr) (f : SFile) (d : R5) (lat : Nat) (v : W64), Free s w →
    scalarRule ((s.landed w).ctx w).regs i = some (f, d, lat, v) →
    exec i s = .next (s.issued w (scalarWords i) [Res.w (sfile f) d.toNat v lat])

/-- R242: with a divisor of 0, DIV, DIVU and REM trap DIVZERO at the bundle, and write no register. -/
def Sys2Proof.Claims.DivisionByZeroTraps : Prop :=
  ∀ (s : State) (w : At) (f : SFile) (d a b : R5), Free s w → ((s.landed w).ctx w).regs.getS f b = 0 →
    let t := s.takeTrap w (trapAt 20 0 0 (slane f) 0) (s.ctx w).pipe.pc 1
    exec (.div f d a b) s = .next t ∧ exec (.divu f d a b) s = .next t ∧ exec (.rem f d a b) s = .next t

/-- R275, R302: the mask operations, AMOV and AINC complete where issue is free, with their result in flight and
nothing else changed. -/
def Obligations.MaskAndAddressResults : Prop :=
  ∀ (s : State) (w : At) (i : Instr) (f : RFile) (n lat : Nat) (v : W64), Free s w →
    maskAddrRule ((s.landed w).ctx w).regs i = some (f, n, lat, v) →
    exec i s = .next (s.issued w 1 [Res.w f n v lat])

/-- R270 to R273, R276, R280: an elementwise VA slot of a format its rule names completes where issue is free: its result is in
flight to the active elements of vd and nothing else of the machine changes. -/
def Obligations.ElementResults : Prop :=
  ∀ (s : State) (w : At) (i : Instr) (o : VOpd) (x : Option Rnd) (lat : Nat) (val : Nat → Nat), Free s w →
    elementRule (s.rounding w x) ((s.landed w).ctx w).regs i = some (o, x, lat, val) → rndGood o x →
    exec i s = .next (s.issued w (if x.isSome then 2 else 1)
      [⟨.v, o.vd.toNat, activeMask (((s.landed w).ctx w).regs.getK o.k.toNat),
        vOfElems (fmtWidth o.fmt.toNat) (elemCount (fmtWidth o.fmt.toNat)) val, lat⟩])

namespace Sys2Proof.Claims

/-! ## Rules of reductions, scans and conversions (R277 to R279) -/

/-- The pairwise tree of 2^n leaves from leaf i (R278). -/
def tree {α : Type} (op : α → α → α) (f : Nat → α) : Nat → Nat → α
  | 0, i => f i
  | n + 1, i => op (tree op f n i) (tree op f n (i + 2 ^ n))

/-- The doubling scan: at each of n levels, from distance d on, an element takes the sum of itself and the one d below (R279). -/
def doubling {α : Type} (op : α → α → α) : Nat → Nat → (Nat → α) → Nat → α
  | 0, _, f => f
  | n + 1, d, f => doubling op n (2 * d) fun i => if i < d then f i else op (f i) (f (i - d))

/-- Levels of the tree over a register of a format: 6 for 64 elements, 7 for 128, 8 for 256. -/
def levels (fmt : Nat) : Nat := Nat.log2 (elemCount (fmtWidth fmt))

/-- The leaf of a sum: the element widened to FP32, or −0, or 0, where it does not take part (Table 12-4). -/
def sumAt (o : VOpd) (r : Regs) (i : Nat) : Nat :=
  let part := active (r.getK o.k.toNat) (fmtWidth o.fmt.toNat) i
  if fmtF o.fmt.toNat then (if part then roundNE 0 (fv o (el o r o.va i)) else 0x80000000)
  else if part then el o r o.va i else 0

/-- The result of a sum rounded from FP32 to the slot's format (R278). -/
def sumRound (o : VOpd) (q : Rounding) (i x : Nat) : Nat :=
  if fmtF o.fmt.toNat then rnd o q i (decodeFloat 0 x).toXR else x

/-- The greatest participating element of va (R278). -/
def maxOf (o : VOpd) (r : Regs) : Nat :=
  let fmt := o.fmt.toNat
  let part := fun i => active (r.getK o.k.toNat) (fmtWidth fmt) i
  if fmtF fmt then
    roundNE fmt (tree maxNum (fun i => if part i then fv o (el o r o.va i) else .inf true) (levels fmt) 0)
  else
    intBits (tree max (fun i => if part i then intElem fmt (el o r o.va i) else (intRange fmt).1) (levels fmt) 0) (fmtWidth fmt)

/-- Operands, extension, latency, mask and value of the VA slots that are not elementwise under their mask (R273, R274, R277 to
R279, R281), by destination file and register. -/
def wholeRule (q : Rounding) (r : Regs) : Instr → Option (VOpd × Option Rnd × Res)
  | .vcmp o => if fmtF o.fmt.toNat || fmtI o.fmt.toNat then
      let fmt := o.fmt.toNat
      let per := 32 / fmtWidth fmt
      let holds := fun g => (r.getK o.k.toNat).getLsbD g &&
        (List.range per).all fun j => vcond (o.vd.toNat / 8) fmt (el o r o.va (g * per + j)) (el o r o.vb (g * per + j))
      some (o, none, Res.w .k (o.vd.toNat % 8) (BitVec.ofNat 64 (packElems 1 (fun g => if holds g then 1 else 0) 64)) 3)
    else none
  | .vsel o => if fmtBits o.fmt.toNat then
      let w := fmtWidth o.fmt.toNat
      some (o, none, Res.v o.vd.toNat (vOfElems w (elemCount w) fun i =>
        if active (r.getK o.k.toNat) w i then el o r o.va i else el o r o.vb i) 3)
    else none
  | .vcvt o x => if o.fmt.toNat ≤ 9 && Nat.ble o.vb.toNat 9 then
      let sf := o.fmt.toNat
      let df := o.vb.toNat
      let wm := max (fmtWidth sf) (fmtWidth df)
      some (o, x, ⟨.v, o.vd.toNat, cvtMask (r.getK o.k.toNat) wm (fmtWidth df),
        vOfElems (fmtWidth df) (2048 / wm) fun i =>
          if sf = df then el o r o.va i else convert sf df q.rm q.sat q.key i (el o r o.va i), 3⟩)
    else none
  | .vreds o x => if (fmtF o.fmt.toNat || o.fmt == 9 || o.fmt == 10) && o.vb == 0 then
      let w := fmtWidth o.fmt.toNat
      some (o, x, Res.v o.vd.toNat (vOfElems w (elemCount w) fun _ =>
        sumRound o q 0 (tree (sumNode o.fmt.toNat q.sat) (sumAt o r) (levels o.fmt.toNat) 0)) 5)
    else none
  | .vredm o => if (fmtF o.fmt.toNat || fmtI o.fmt.toNat) && o.vb == 0 then
      let w := fmtWidth o.fmt.toNat
      some (o, none, Res.v o.vd.toNat (vOfElems w (elemCount w) fun _ => maxOf o r) 5)
    else none
  | .vscan o x => if (fmtF o.fmt.toNat || o.fmt == 9) && o.vb == 0 then
      let w := fmtWidth o.fmt.toNat
      some (o, x, ⟨.v, o.vd.toNat, activeMask (r.getK o.k.toNat), vOfElems w (elemCount w) fun i =>
        sumRound o q i (doubling (sumNode o.fmt.toNat q.sat) (levels o.fmt.toNat) 1 (sumAt o r) i), 6⟩)
    else none
  | .vgauss o => if o.fmt == 0 then some (o, none, Res.v o.vd.toNat (vOfElems 32 64 fun i =>
      roundNE 0 (gaussZ (r.getK o.k.toNat) (BitVec.ofNat 64 (el o r o.vb i * 2 ^ 32 + el o r o.va i)))) 4) else none
  | .vrand o => if o.fmt == 9 then some (o, none, Res.v o.vd.toNat (vOfElems 32 64 fun i =>
      (mix64 (r.getK o.k.toNat) (BitVec.ofNat 64 (el o r o.vb i * 2 ^ 32 + el o r o.va i))).toNat / 2 ^ 32) 4) else none
  | _ => none

/-! ## Rules of the FM lane (R283 to R289) -/

/-- Element i of a register in w-bit elements. -/
def ev (r : Regs) (n : R5) (w i : Nat) : Nat := elem (r.getV n.toNat) w i

/-- Operands, extension and result of an FM slot, where its fields are those of its rule. -/
def formatRule (q : Rounding) (r : Regs) : Instr → Option (FOpd × Option Rnd × Res)
  | .pack o x =>
    let sf := subFmt o.sub.toNat
    let es := 2048 / fmtWidth sf
    if o.fmt.toNat ≤ 9 && Nat.ble o.sub.toNat 4 && Nat.blt (fmtWidth o.fmt.toNat) (fmtWidth sf) then
      some (o, x, Res.v o.vd.toNat (vOfElems (fmtWidth o.fmt.toNat) (2 * es) fun j =>
        convert sf o.fmt.toNat q.rm q.sat q.key j
          (if j < es then ev r o.va (fmtWidth sf) j else ev r o.vb (fmtWidth sf) (j - es))) 2)
    else none
  | .unpack o =>
    let df := subFmt o.sub.toNat
    let wd := fmtWidth df
    if unpackOk o.fmt.toNat df && Nat.blt o.vb.toNat (wd / fmtWidth o.fmt.toNat) then
      some (o, none, Res.v o.vd.toNat (vOfElems wd (2048 / wd) fun i =>
        convert o.fmt.toNat df .rne false 0 i (ev r o.va (fmtWidth o.fmt.toNat) (o.vb.toNat * (2048 / wd) + i))) 2)
    else none
  | .vscale o x =>
    let w := fmtWidth o.fmt.toNat
    if (fmtF o.fmt.toNat || o.fmt == 3 || o.fmt == 4) && o.vb.toNat / 8 % 2 == 0 &&
        Nat.ble (o.sub.toNat + elemCount w / 32) 8 then
      some (o, x, Res.v o.vd.toNat (vOfElems w (elemCount w) fun i =>
        roundTo o.fmt.toNat q.rm q.sat q.key i (applyScale (16 ≤ o.vb.toNat)
          (scaleByte (r.getE (o.vb.toNat % 8)) (o.sub.toNat + i / 32)) (elemValue o.fmt.toNat (ev r o.va w i))).toXR) 2)
    else none
  | .cpye o =>
    let w := fmtWidth o.fmt.toNat
    if (o.fmt == 0 || o.fmt == 1) && Nat.blt o.va.toNat 8 && o.vb == 0 && Nat.ble (o.sub.toNat + elemCount w / 32) 8 then
      some (o, none, Res.v o.vd.toNat (vOfElems w (elemCount w) fun i =>
        roundNE o.fmt.toNat (decodeScale (scaleByte (r.getE o.va.toNat) (o.sub.toNat + i / 32)))) 2)
    else none
  | .bscale o =>
    let w := fmtWidth o.fmt.toNat
    let nb := elemCount w / 32
    let q4 := o.vd.toNat / 8
    if fmtF o.fmt.toNat && Nat.ble o.sub.toNat 2 && o.vb == 0 && Nat.ble ((q4 + 1) * nb) 8 then
      some (o, none, ⟨.e, o.vd.toNat % 8, BitVec.ofNat 2048 ((2 ^ (8 * nb) - 1) * 2 ^ (8 * q4 * nb)),
        BitVec.ofNat 2048 (packElems 8 (fun b => sharedExp ((List.range 32).map fun i =>
          elemValue o.fmt.toNat (ev r o.va w (32 * b + i))) (bscaleFmt o.sub.toNat)) nb * 2 ^ (8 * q4 * nb)), 2⟩)
    else none
  | .perm o =>
    let w := fmtWidth o.fmt.toNat
    if fmtS o.fmt.toNat && o.sub == 0 then
      some (o, none, Res.v o.vd.toNat (vOfElems w (elemCount w) fun i => ev r o.va w (ev r o.vb w i % elemCount w)) 2) else none
  | .zip o =>
    let w := fmtWidth o.fmt.toNat
    if fmtS o.fmt.toNat && Nat.ble o.sub.toNat 1 then
      some (o, none, Res.v o.vd.toNat (vOfElems w (elemCount w) fun i =>
        ev r (if i % 2 = 0 then o.va else o.vb) w (i / 2 + o.sub.toNat * (elemCount w / 2))) 2) else none
  | .unzip o =>
    let w := fmtWidth o.fmt.toNat
    let h := elemCount w / 2
    if fmtS o.fmt.toNat && Nat.ble o.sub.toNat 1 then
      some (o, none, Res.v o.vd.toNat (vOfElems w (elemCount w) fun i =>
        if i < h then ev r o.va w (2 * i + o.sub.toNat) else ev r o.vb w (2 * (i - h) + o.sub.toNat)) 2) else none
  | .xpose o =>
    let w := fmtWidth o.fmt.toNat
    if fmtS o.fmt.toNat && o.sub == 0 && o.vb == 0 then
      some (o, none, Res.v o.vd.toNat (vOfElems w (elemCount w) fun i =>
        ev r o.va w (i % 8 * (elemCount w / 8) + i / 8)) 2) else none
  | .rnsenc o => if o.fmt == 10 && o.sub == 0 && o.vb == 0 then
      some (o, none, Res.v o.vd.toNat (vOfElems 32 64 fun i => rnsEnc (sextNat (ev r o.va 32 i) 32)) 2) else none
  | .rnsdec o => if o.fmt == 10 && o.sub == 0 && Nat.ble o.vb.toNat 23 then
      some (o, none, Res.v o.vd.toNat (vOfElems 32 64 fun i => intBits (rnsDec (ev r o.va 32 i) o.vb.toNat) 32) 4) else none
  | .swsplit o =>
    let sw32 := o.fmt == 11
    if Nat.ble o.sub.toNat 2 && ((sw32 && o.vb == 0) || (o.fmt == 12 && Nat.ble o.vb.toNat 1)) then
      some (o, none, Res.v o.vd.toNat (vOfElems 32 64 fun i =>
        (pairAt sw32 (r.getV o.va.toNat) (i + 64 * o.vb.toNat)).part o.sub.toNat) 2) else none
  | .swjoin o x =>
    let h := o.sub.toNat
    if o.fmt == 11 && h == 0 then
      some (o, x, Res.v o.vd.toNat (vOfElems 32 64 fun i => joinPair true q i (ev r o.va 32 i) (ev r o.vb 32 i)) 2)
    else if o.fmt == 12 && Nat.ble h 1 then
      some (o, x, Res.v o.vd.toNat (vOfElems 16 128 fun j =>
        if 64 * h ≤ j ∧ j < 64 * h + 64 then joinPair false q j (ev r o.va 32 (j - 64 * h)) (ev r o.vb 32 (j - 64 * h))
        else ev r o.vd 16 j) 2)
    else none
  | _ => none

/-- RM of an FM extension is one of 0 to 4, and SAT is clear for RNS3 (R269). -/
def rndGoodF (o : FOpd) : Option Rnd → Prop
  | none => True
  | some x => x.rm.toNat ≤ 4 ∧ (x.sat = true → o.fmt ≠ 10)

end Sys2Proof.Claims

/-! ## Reductions, scans, conversions, compares and the FM lane -/

/-- R273, R274, R277 to R279, R281: a compare, select, conversion, reduction, scan or sample of a format its rule names
completes where issue is free. VREDS and VREDM reduce over the pairwise tree and VSCAN over the doubling order of R279, whatever
the mask selects; the result is in flight and nothing else changes. -/
def Obligations.WholeVectorResults : Prop :=
  ∀ (s : State) (w : At) (i : Instr) (o : VOpd) (x : Option Rnd) (res : Res), Free s w →
    wholeRule (s.rounding w x) ((s.landed w).ctx w).regs i = some (o, x, res) → rndGood o x →
    exec i s = .next (s.issued w (if x.isSome then 2 else 1) [res])

/-- R42: the residues of the container that RNSENC writes for an integer, and that it stands for the integer reduced modulo M into the
signed range. -/
def Sys2Proof.Claims.RnsEncoding : Prop :=
  ∀ v : Int, ((rnsEnc v % 256 : Nat) : Int) = v % 251 ∧ ((rnsEnc v / 256 % 256 : Nat) : Int) = v % 241 ∧
    ((rnsEnc v / 65536 : Nat) : Int) = v % 239 ∧
    -7228674 ≤ crtDecode (rnsEnc v) ∧ crtDecode (rnsEnc v) ≤ 7228674 ∧ (crtDecode (rnsEnc v) - v) % 14457349 = 0

/-- R42 and R283 to R289: an FM slot whose fields are those of its rule completes where issue is free; its result is in flight and
nothing else changes. RNSENC writes the residues of its elements. -/
def Obligations.FormatResults : Prop :=
  Claims.RnsEncoding ∧
  ∀ (s : State) (w : At) (i : Instr) (o : FOpd) (x : Option Rnd) (res : Res), Free s w →
    formatRule (s.rounding w x) ((s.landed w).ctx w).regs i = some (o, x, res) → rndGoodF o x →
    exec i s = .next (s.issued w (if x.isSome then 2 else 1) [res])

namespace Sys2Proof.Claims

/-! ## Rules of moves, system registers and the BR lane (R218, R246 to R263) -/

/-- File that field sf of a CPY names (Table 10-2). -/
def fileOfCode (n : Nat) : Option RFile :=
  match n with
  | 0 => some .x | 1 => some .y | 2 => some .v | 3 => some .k | 4 => some .a | 5 => some .e | 6 => some .tl | _ => none

/-- File that a CPY writes, by its lane (R218). -/
def fileOfLane : CpyLane → Bool → Option RFile
  | .sx, false => some .x | .sy, false => some .y | .va, false => some .v | .va, true => some .k | .fm, false => some .e
  | .ls, false => some .a | _, true => none

/-- The result of a CPY that R218 allows: two different files, tl only into x, registers of their files, and a piece number only
where a v register is read or written. -/
def copyRule (r : Regs) (l : CpyLane) (d : R5) (sf : BitVec 3) (a piece : R5) (dk : Bool) : Option Res :=
  match fileOfCode sf.toNat, fileOfLane l dk with
  | some src, some dst =>
    if src ≠ dst ∧ (src = .tl → dst = .x) ∧ a.toNat < fileSize src ∧ d.toNat < fileSize dst ∧
        (src = .v ∨ dst = .v ∨ piece = 0) then
      let v : W64 := if src = .v then (r.getV a.toNat >>> (64 * piece.toNat)).setWidth 64 else r.get src a.toNat
      some (if dst = .v then ⟨.v, d.toNat, pieceMask piece.toNat, v.setWidth 2048 <<< (64 * piece.toNat), 2⟩
        else Res.w dst d.toNat v 2)
    else none
  | _, _ => none

/-- SEL of the system registers, and the ones that MTS may write in task mode and in supervisor mode alone (Table 11-3). -/
def sels : List Nat := [0, 1, 2, 3, 4, 5, 6, 7, 8, 9, 10, 16, 17, 18, 19, 20, 24, 25]
def selsTask : List Nat := [5, 8, 9]
def selsSup : List Nat := [3, 4, 6, 7, 10, 24, 25]

/-- What MTS makes of a register: its writable bits take those of the value (Table 11-4). -/
def mtsRule (y : Sys) (sel : Nat) (v : W64) : Sys :=
  if sel = 3 then { y with asid := v &&& 0x3FF#64 }
  else if sel = 4 then { y with kperm := v }
  else if sel = 5 then { y with tvec := v &&& ~~~3#64 }
  else if sel = 6 then { y with tcause := v &&& 0xFFFF000000FFCFFF#64 }
  else if sel = 7 then { y with taddr := v }
  else if sel = 8 then { y with tbundle := v &&& ~~~3#64 }
  else if sel = 9 then { y with tstate := (y.tstate &&& ~~~0x18#64) ||| (v &&& 0x18#64) }
  else if sel = 10 then { y with prioclass := (y.prioclass &&& ~~~3#64) ||| (v &&& 3#64) }
  else if sel = 24 then { y with codebase := v &&& ~~~3#64 }
  else if sel = 25 then { y with codelimit := v &&& ~~~3#64 }
  else y

/-- What MFS reads: each register of Table 11-3 by its SEL; CTXID from the context's place, PRIOCLASS with the class in effect
(R247, Table 11-4). -/
def mfsRule (s : State) (w : At) : Nat → W64
  | 0 => (s.ctx w).sys.taskid
  | 1 => (s.ctx w).sys.logidx
  | 2 => BitVec.ofNat 64 (4 * w.core) ||| BitVec.ofNat 64 w.ctx
  | 3 => (s.ctx w).sys.asid
  | 4 => (s.ctx w).sys.kperm
  | 5 => (s.ctx w).sys.tvec
  | 6 => (s.ctx w).sys.tcause
  | 7 => (s.ctx w).sys.taddr
  | 8 => (s.ctx w).sys.tbundle
  | 9 => (s.ctx w).sys.tstate
  | 10 => BitVec.ofNat 64 (16 * fld (s.ctx w).sys.prioclass 5 4) ||| BitVec.ofNat 64 (4 * s.eff w) |||
      BitVec.ofNat 64 (fld (s.ctx w).sys.prioclass 1 0)
  | 24 => (s.ctx w).sys.codebase
  | 25 => (s.ctx w).sys.codelimit
  | n => tget 0 (s.ctx w).sys.dom (n - 16)

/-- D, whether the slot is a CALL, and the target if it is taken, of a branch; none for one that traps NONUNIFORM
(R251 to R254). -/
def branchRule (c : Ctx) : Instr → Option (Bool × Bool × Option W64)
  | .bra dr off => some (dr, false, some (c.pipe.pc + 4 * off.signExtend 64))
  | .bz dr f r off => some (dr, false, if c.regs.getS f r = 0 then some (c.pipe.pc + 4 * off.signExtend 64) else none)
  | .bnz dr f r off => some (dr, false, if c.regs.getS f r = 0 then none else some (c.pipe.pc + 4 * off.signExtend 64))
  | .bkall dr k off =>
    if c.regs.getK k.toNat = BitVec.allOnes 64 then some (dr, false, some (c.pipe.pc + 4 * off.signExtend 64))
    else if c.regs.getK k.toNat = 0 then some (dr, false, none) else none
  | .bknone dr k off =>
    if c.regs.getK k.toNat = 0 then some (dr, false, some (c.pipe.pc + 4 * off.signExtend 64))
    else if c.regs.getK k.toNat = BitVec.allOnes 64 then some (dr, false, none) else none
  | .call dr off => some (dr, true, some (c.pipe.pc + 4 * off.signExtend 64))
  | .ret dr => some (dr, false, some (c.regs.getX 31 &&& ~~~3#64))
  | _ => none

/-- The results of a branch: a CALL's link. -/
def linkOf (call : Bool) (pc : W64) : List Res := if call then [Res.w .x 31 (pc + 4) 1] else []

/-- The greatest count at which a result in flight is due, or the next count (R252). -/
def drained (c : Ctx) (rs : List Res) : Nat := (c.pipe.push c.pipe.count rs).drainTo c.pipe.count

/-- Registers of a context that are neither in its pipeline nor its schedule. -/
def sameArch (a b : Ctx) : Prop :=
  b.eng = a.eng ∧ b.evq = a.evq ∧ b.owed = a.owed ∧ b.copyq = a.copyq ∧ b.stamp = a.stamp ∧ b.phase = a.phase ∧
  b.phases = a.phases ∧ b.extents = a.extents ∧ b.slice = a.slice ∧ b.trid = a.trid

/-- Nothing of the machine outside context w differs. -/
def onlyCtx (s t : State) (w : At) : Prop :=
  (∀ v, v ≠ w → t.ctx v = s.ctx v) ∧ t = { s with cores := t.cores } ∧
  ∀ k, { t.core k with ctxs := (s.core k).ctxs } = s.core k

end Sys2Proof.Claims

/-! ## Moves and system registers -/

/-- R218: a CPY that R218 allows completes where issue is free, unless it reads a tl register whose NTR is due and not answered: the
64-bit value is in flight to its destination with latency 2, and nothing else changes. -/
def Obligations.CrossFileCopies : Prop :=
  ∀ (s : State) (w : At) (l : CpyLane) (d : R5) (sf : BitVec 3) (a piece : R5) (dk : Bool) (res : Res), Free s w →
    copyRule ((s.landed w).ctx w).regs l d sf a piece dk = some res →
    (sf = 6 → (s.ctx w).pipe.ntrWaits a.toNat = false) →
    exec (.cpy l d sf a piece dk) s = .next (s.issued w 1 [res])

/-- R246 to R248: in either mode, MFS of any register of Table 11-3 completes: the register's value is in flight to d with latency 1, and
nothing else changes. -/
def Obligations.SystemRegisterReads : Prop :=
  ∀ (s : State) (w : At) (f : SFile) (d : R5) (sel : BitVec 12), Free s w → sel.toNat ∈ sels →
    exec (.mfs f d sel) s = .next (s.issued w 1 [Res.w (sfile f) d.toNat (Claims.mfsRule (s.landed w) w sel.toNat) 1])

/-- R246 to R248: MTS to a register that its mode may write replaces that register's writable bits, drops the buffered code words
outside the code window, and changes nothing else.
That a slot of the same bundle does not see the write is a reading (log 32). -/
def Obligations.SystemRegisterWrites : Prop :=
  ∀ (s : State) (w : At) (f : SFile) (a : R5) (sel : BitVec 12), Free s w →
    (sel.toNat ∈ selsTask ∨ (sel.toNat ∈ selsSup ∧ (s.ctx w).sup = true)) →
    exec (.mts f a sel) s = .next ((s.issued w 1 []).updCtx w fun c =>
      let y := mtsRule c.sys sel.toNat (c.regs.getS f a)
      { c with sys := y, pipe := { c.pipe with
          ibuf := c.pipe.ibuf.filter fun q => y.codebase.toNat ≤ q.1 && q.1 < y.codelimit.toNat } })

/-- R221, R246, R248: MTS to a register marked PRIV traps PRIV in task mode, and to one marked ILLEGAL or in no row of the table
traps ILLEGAL, as MFS of one in no row does. -/
def Sys2Proof.Claims.SystemRegisterTraps : Prop :=
  ∀ (s : State) (w : At) (f : SFile) (a : R5) (sel : BitVec 12), s.cur = some w → (s.ctx w).mayIssue = true →
    (sel.toNat ∈ selsSup → (s.ctx w).sup = false →
      exec (.mts f a sel) s = .next (s.takeTrap w (trapAt 3 0 0 (slane f) 0) (s.ctx w).pipe.pc 1)) ∧
    (sel.toNat ∉ selsTask → sel.toNat ∉ selsSup →
      exec (.mts f a sel) s = .next (s.takeTrap w (trapAt 1 0 0 (slane f) 0) (s.ctx w).pipe.pc 1)) ∧
    (sel.toNat ∉ sels →
      exec (.mfs f a sel) s = .next (s.takeTrap w (trapAt 1 0 0 (slane f) 0) (s.ctx w).pipe.pc 1))

/-! ## The BR lane -/

/-- R251 to R254, R256: a branch, CALL or RET completes where issue is free: taken, the next bundle is the one at its target and
every loop whose body it leaves is popped (a CALL pops none); not taken, the next bundle is the one in sequence. D drains. A CALL
links x31. Nothing else changes. -/
def Obligations.Branches : Prop :=
  ∀ (s : State) (w : At) (i : Instr) (dr call : Bool) (t : Option W64), Free s w →
    branchRule ((s.landed w).ctx w) i = some (dr, call, t) →
    let c := (s.landed w).ctx w
    let rs := linkOf call c.pipe.pc
    exec i s = .next (s.moved w rs (if dr then drained c rs else c.pipe.count + 1)
      (match t with
        | some a => if call then (c.pipe.loops, a) else (leaveLoops c.pipe.pc a c.pipe.loops, a)
        | none => closeLoops c.pipe.pc (c.pipe.pc + 4) c.pipe.loops))

/-- R253: BKALL and BKNONE of a mask that is neither all ones nor all zeros trap NONUNIFORM. -/
def Sys2Proof.Claims.NonuniformTraps : Prop :=
  ∀ (s : State) (w : At) (dr : Bool) (k : BitVec 3) (off : BitVec 18), Free s w →
    ((s.landed w).ctx w).regs.getK k.toNat ≠ 0 → ((s.landed w).ctx w).regs.getK k.toNat ≠ BitVec.allOnes 64 →
    let t := s.takeTrap w (trapAt 13 0 0 7 0) (s.ctx w).pipe.pc 1
    exec (.bkall dr k off) s = .next t ∧ exec (.bknone dr k off) s = .next t

/-- R255: LOOP and LOOPX whose END reaches past their own bundle, at a stack with room and outside the last bundle of the top loop,
complete: with a count of 1 or more they push an entry whose body starts at the next word and ends at pc + 4·END; with a count of 0
the next bundle is the one after the body. -/
def Sys2Proof.Claims.Loops : Prop :=
  ∀ (s : State) (w : At) (i : Instr) (nw count stop : Nat), Free s w →
    let c := (s.landed w).ctx w
    ((∃ n e, i = .loop (.imm n) e ∧ nw = 1 ∧ count = n.toNat ∧ stop = e.toNat) ∨
      (∃ r e, i = .loop (.reg r) e ∧ nw = 1 ∧ count = (c.regs.getX r.toNat).toNat ∧ stop = e.toNat) ∨
      (∃ n e, i = .loopx n e ∧ nw = 2 ∧ count = n.toNat ∧ stop = e.toNat)) →
    nw ≤ stop → count < 2 ^ 31 → c.pipe.loops.length < 6 →
    (∀ e l, c.pipe.loops = e :: l → ¬ (c.pipe.pc ≤ e.stop ∧ e.stop < c.pipe.pc + BitVec.ofNat 64 (4 * nw))) →
    let last := c.pipe.pc + BitVec.ofNat 64 (4 * stop)
    let seq := c.pipe.pc + BitVec.ofNat 64 (4 * nw)
    exec i s = .next (s.moved w [] (c.pipe.count + 1)
      (if count = 0 then (c.pipe.loops, (s.landed w).afterStop w ((c.sys.codelimit.toNat - last.toNat + 3) / 4) last) else (⟨seq, last, count⟩ :: c.pipe.loops, seq)))

/-- R256: where a bundle holds the end word of the top loop, a loop with more than one iteration left goes back to its start with one
iteration less, and one with its last iteration is popped, so that the next bundle is the one in sequence (when no loop outside it
ends there). -/
def Sys2Proof.Claims.LoopEnds : Prop :=
  ∀ (s : State) (w : At) (e : LoopEnt), Free s w → (s.ctx w).pipe.loops = [e] →
    (s.ctx w).pipe.pc ≤ e.stop → e.stop < (s.ctx w).pipe.pc + 4 →
    exec .nop s = .next (s.moved w [] ((s.ctx w).pipe.count + 1)
      (if 1 < e.rem then ([{ e with rem := e.rem - 1 }], e.start) else ([], (s.ctx w).pipe.pc + 4)))

/-- R255 to R257: how loops open and how they end. -/
def Obligations.LoopsOpenAndEnd : Prop := Claims.Loops ∧ Claims.LoopEnds

/-- R221, R242, R246, R248, R253: the traps of a zero divisor, of a mask that is not uniform, and of system registers. -/
def Obligations.OperandTraps : Prop := Claims.DivisionByZeroTraps ∧ Claims.NonuniformTraps ∧ Claims.SystemRegisterTraps

/-- R258 to R260, R88: NOP, YIELD, PRIO within its bound, IFENCE, WAITEV with a record at hand, and HALT whose task may end complete
where issue is free. WAITEV moves the oldest record to xd and xd+1; YIELD gives issue away for the next cycle; PRIO sets the class; IFENCE
empties the instruction buffer and the core's L1 instruction cache; HALT drains and issues nothing more. -/
def Obligations.ControlSlots : Prop :=
  ∀ (s : State) (w : At), Free s w →
    exec .nop s = .next (s.issued w 1 []) ∧
    exec .yield s = .next ((s.issued w 1 []).updCore w.core fun k => { k with yielded := true }) ∧
    (∀ c : BitVec 2, ((s.ctx w).sup = true ∨ c.toNat ≤ fld (s.ctx w).sys.prioclass 5 4) →
      exec (.prio c) s = .next ((s.issued w 1 []).updSys w fun y => { y with prioclass := setFld y.prioclass 1 0 c.toNat })) ∧
    exec .ifence s = .next (((s.issued w 1 []).updPipe w fun p => { p with ibuf := [] }).updCore w.core
      fun k => { k with l1i := [] }) ∧
    (∀ (r : R5) (e : Rec) (l : List Rec), r.toNat % 2 = 0 → (s.ctx w).evq = e :: l →
      exec (.waitev r) s = .next ((s.issued w 1 [Res.w .x r.toNat e.w0 1, Res.w .x (r.toNat + 1) e.w1 1]).updCtx w
        fun c => { c with evq := l ++ c.owed.take 1, owed := c.owed.drop 1 })) ∧
    ((s.landed w).mayEnd w = true →
      let c := (s.landed w).ctx w
      exec .halt s = .next ((s.moved w [] (c.pipe.drainTo c.pipe.count) (c.pipe.loops, c.pipe.pc)).updSched w
        fun k => { k with ending := some (0, 0) }))

/-! ## Traps -/

/-- R261: TRAP and BREAK issue and are then taken with their code: the bundle's state is that of one with no effect, and the trap names
the bundle, its one word, and RESUME. -/
def Obligations.TrapInstructions : Prop :=
  ∀ (s : State) (w : At) (code : BitVec 16), Free s w →
    let pc := (s.ctx w).pipe.pc
    exec (.trap code) s = .next ((s.issued w 1 []).takeTrap w { trapAt 25 0 0 7 0 with code := code.toNat } pc 1) ∧
    exec (.brk code) s = .next ((s.issued w 1 []).takeTrap w { trapAt 26 0 0 7 0 with code := code.toNat } pc 1)

/-- R262, R374, R379: a trap that is delivered writes TCAUSE and TADDR, puts the
bundle's address in TBUNDLE, its word count in LEN and in RESUME whether it is TRAPINSN or BREAK, sets INH, and makes the bundle at TVEC
the next one; the context stays ready, its task's engine state and everything outside the context stay as they are, and no result or answer of a tile request is left to land in the handler. -/
def Obligations.TrapDelivery : Prop :=
  ∀ (s : State) (w : At) (tr : Trap) (pc : W64) (len : Nat), (s.ctx w).delivers tr = true → len < 16 →
    let t := s.takeTrap w tr pc len
    let y := (t.ctx w).sys
    y.tcause = tr.tcause ∧ y.taddr = tr.addr ∧ y.tbundle = pc &&& ~~~3#64 ∧ fld y.tstate 15 12 = len ∧
    bit y.tstate 4 = (tr.cause == 25 || tr.cause == 26) ∧ bit y.tstate 2 = true ∧
    (∀ n, n < 64 → n ≠ 2 → n ≠ 4 → (n < 12 ∨ 15 < n) → bit y.tstate n = bit (s.ctx w).sys.tstate n) ∧
    y.tvec = (s.ctx w).sys.tvec ∧ y.kperm = (s.ctx w).sys.kperm ∧ y.asid = (s.ctx w).sys.asid ∧
    y.prioclass = (s.ctx w).sys.prioclass ∧ y.codebase = (s.ctx w).sys.codebase ∧ y.codelimit = (s.ctx w).sys.codelimit ∧
    (t.ctx w).pipe.pc = (s.ctx w).sys.tvec &&& ~~~3#64 ∧ (t.ctx w).sched.run = .ready ∧ (t.ctx w).pipe.inflight = [] ∧
    (t.ctx w).pipe.ntrOwn = [] ∧ sameArch (s.ctx w) (t.ctx w) ∧ onlyCtx s t w

/-- R375, R379, R380: a trap that is not delivered stops its context at the boundary: while a result or a copy entry is still awaited the
context is held with KIND 3 and its task's save area, with the completion words of a request which the stop also serves (R376), nothing in
flight, and nothing outside the context changes, where its core has no store logged, its task is no gang member and no host completion has
failed.
What a stop waits for is a reading (log 37), as is that a pending request is served with it (log 60). -/
def Obligations.TrapEscalation : Prop :=
  ∀ (s : State) (w : At) (tr : Trap) (pc : W64) (len : Nat), (s.ctx w).delivers tr = false →
    ((s.ctx w).setAside (s.ctx w).pipe.count).settled = false → (s.core w.core).lees = [] →
    (s.taskOf w).bind (·.gang) = none → s.link.fails = [] →
    let t := s.takeTrap w tr pc len
    (t.ctx w).sched.run = .held ∧
    (t.ctx w).sched.stop = some (
      let own : Stop := { kind := 3, save := ((s.taskOf w).map (·.save)).getD 0,
                          keep := ((s.taskOf w).map (·.keep)).getD false, donep := [], soft := false }
      match (s.ctx w).sched.preempt with
      | some p => { own with keep := p.keep, donep := p.donep }
      | none => own) ∧
    (t.ctx w).sys = (s.ctx w).sys.trapRegs tr pc len (tr.cause == 25 || tr.cause == 26) ∧ (t.ctx w).pipe.pc = (s.ctx w).pipe.pc ∧
    (t.ctx w).pipe.inflight = [] ∧ sameArch (s.ctx w) (t.ctx w) ∧ onlyCtx s t w

/-- R263: RTT inside a handler completes: INH is cleared, and the next bundle is the one at TBUNDLE, or LEN words after it with RESUME;
outside a handler it traps PRIV. Nothing outside the context changes. -/
def Obligations.ReturnFromTrap : Prop :=
  ∀ (s : State) (w : At) (dr : Bool), Free s w →
    ((s.ctx w).inh = true → ∃ t, exec (.rtt dr) s = .next t ∧
      (t.ctx w).sys = { (s.ctx w).sys with tstate := setFld (s.ctx w).sys.tstate 2 2 0 } ∧
      (t.ctx w).pipe.pc = (s.ctx w).sys.tbundle + BitVec.ofNat 64
        (if bit (s.ctx w).sys.tstate 4 then 4 * fld (s.ctx w).sys.tstate 15 12 else 0) ∧
      (t.ctx w).pipe.count = (if dr then drained ((s.landed w).ctx w) [] else (s.ctx w).pipe.count + 1) ∧
      (t.ctx w).regs = ((s.landed w).ctx w).regs ∧ (∀ e ∈ (t.ctx w).pipe.shadow, e.grp ≠ 0) ∧
      (t.ctx w).sched.run = .ready ∧ sameArch (s.ctx w) (t.ctx w) ∧ onlyCtx s t w) ∧
    ((s.ctx w).inh = false →
      exec (.rtt dr) s = .next (s.takeTrap w (trapAt 3 0 0 7 0) (s.ctx w).pipe.pc 1))

namespace Sys2Proof.Claims

/-! ## Rules of the LS lane (R73, R290 to R298) -/

/-- The address, size and sign of a scalar load (R230, R290, R292). -/
def loadAddr (r : Regs) (sz : LdSz) (o : LmOpd) : W64 × Nat × Bool :=
  let p : Nat × Bool := match sz with
    | .s8 => (1, true) | .z8 => (1, false) | .s16 => (2, true) | .z16 => (2, false) | .s32 => (4, true)
    | .z32 => (4, false) | .d64 => (8, false)
  (r.getA o.a.toNat + BitVec.ofNat 64 p.1 * o.disp.signExtend 64, p)

/-- The address and size of a scalar store (R230, R290). -/
def storeAddr (r : Regs) (sz : StSz) (o : LmOpd) : W64 × Nat :=
  let n := match sz with
    | .b8 => 1 | .b16 => 2 | .b32 => 4 | .b64 => 8
  (r.getA o.a.toNat + BitVec.ofNat 64 n * o.disp.signExtend 64, n)

/-- No device of the state has a global access that is not answered. -/
def noGlobal (s : State) : Prop := ∀ d ∈ s.dies, ∀ f ∈ d.2.tx.flows, f.2.accs = []

/-- Neither the translation of n bytes at a nor the place of their translation waits for a bias. -/
def biasSettled (s : State) (w : At) (a : W64) (n : Nat) (x : Xl) : Prop :=
  s.coreWalkWait w.core (s.ctx w).asid ((s.ctx w).extentFor a.toNat n) a n = none ∧
  ∀ wide write, s.placeWait (clusterOf w.core) x wide write n = none

/-- An access of n bytes at a is local, translates as one part to HBM with CPOL 00 and an ordering other than SO, and waits for
nothing: no logged store, no held release or cache operation, no unanswered global access, no bias flip. -/
def plainAccess (s : State) (w : At) (a : W64) (n : Nat) (need : Need) (x : Xl) : Prop :=
  isGlobal a = false ∧ s.parts w (s.ctx w) a n need = [(a, n, .ok x)] ∧ isHbm (x.pa + n) = true ∧ x.cpol = 0 ∧ x.okind ≠ 0 ∧
  biasSettled s w a n x ∧ (s.core w.core).lees = [] ∧ s.releases = [] ∧ s.cacheOps = [] ∧ noGlobal s

/-- Nothing holds an access of n bytes at a at issue: no logged store, held release, cache operation or global access is open, and each
of its parts translates to bytes whose bias is settled. -/
def unheld (s : State) (w : At) (a : W64) (n : Nat) (need : Need) : Prop :=
  noGlobal s ∧ (s.core w.core).lees = [] ∧ s.releases = [] ∧ s.cacheOps = [] ∧
  (isGlobal a = false → s.coreWalkWait w.core (s.ctx w).asid ((s.ctx w).extentFor a.toNat n) a n = none ∧
    ∀ p ∈ s.parts w (s.ctx w) a n need, ∃ x, p.2.2 = .ok x ∧ ∀ wide write, s.placeWait (clusterOf w.core) x wide write p.2.1 = none)

/-- Every line that n bytes at pa touch stands in the cluster cache, or its set has room for it. -/
def roomy (s : State) (clu pa n : Nat) : Prop :=
  ∀ l ∈ linesOf pa n, (tget? (s.clu clu).cc l).isSome ∨ ((s.clu clu).freeWay (l % 16384)).isSome

/-- Every line that n bytes at pa touch stands in the cluster cache. -/
def heldLines (s : State) (clu pa n : Nat) : Prop := ∀ l ∈ linesOf pa n, (tget? (s.clu clu).cc l).isSome

/-- The bytes of memory at pa as a cluster sees them. -/
def seen (s : State) (clu pa n : Nat) : List Byte := (List.range n).map fun i => s.cluByte clu (pa + i)

/-- A vector access (R294): whether it stores, its register, its element's bytes, its mask register, and the address of element i: at
rising addresses, at a stride, or by an index register. -/
def vectorRule (r : Regs) : Instr → Option (Bool × R5 × Nat × BitVec 3 × (Nat → W64))
  | .vld d a k disp => some (false, d, 4, k, fun i => r.getA a.toNat + 256 * disp.signExtend 64 + BitVec.ofNat 64 (4 * i))
  | .vst d a k disp => some (true, d, 4, k, fun i => r.getA a.toNat + 256 * disp.signExtend 64 + BitVec.ofNat 64 (4 * i))
  | .vlds d a k ix esz => some (false, d, 2 ^ esz.toNat, k, fun i => r.getA a.toNat + BitVec.ofNat 64 i * r.getA ix.toNat)
  | .vsts d a k ix esz => some (true, d, 2 ^ esz.toNat, k, fun i => r.getA a.toNat + BitVec.ofNat 64 i * r.getA ix.toNat)
  | .vgth d a k ix esz => some (false, d, 2 ^ esz.toNat, k, fun i =>
      r.getA a.toNat + BitVec.ofNat 64 (elem (r.getV ix.toNat) (8 * 2 ^ esz.toNat) i * 2 ^ esz.toNat))
  | .vsct d a k ix esz => some (true, d, 2 ^ esz.toNat, k, fun i =>
      r.getA a.toNat + BitVec.ofNat 64 (elem (r.getV ix.toNat) (8 * 2 ^ esz.toNat) i * 2 ^ esz.toNat))
  | _ => none

/-- The active elements of n bytes under a mask: those whose 32-bit granule's bit is 1 (R294). -/
def activeElems (n : Nat) (k : W64) : List Nat := (List.range (256 / n)).filter fun i => k.getLsbD (8 * n * i / 32)

/-- The bits of a register that elements of n bytes fill. -/
def elemBits (n : Nat) (l : List Nat) : VReg :=
  l.foldl (fun m i => m ||| BitVec.ofNat 2048 ((2 ^ (8 * n) - 1) * 2 ^ (8 * n * i))) 0

/-- The translation of an address stands in the core's L1 TLB, or in an extent. -/
def tlbHolds (s : State) (w : At) (a : W64) (n : Nat) : Prop :=
  ((s.ctx w).extentFor a.toNat n).isSome ∨ ∃ e ∈ (s.core w.core).tlb, e.hits (s.ctx w).asid a.toNat = true

/-- The value that an atomic leaves: operation codes of R465 on n bytes m, operand sv and comparand cv (R297). -/
def atomicRule (op n m sv cv : Nat) : Nat :=
  match op with
  | 0 => (m + sv) % 2 ^ (8 * n)
  | 1 => if sextNat sv (8 * n) < sextNat m (8 * n) then sv else m
  | 2 => if sextNat m (8 * n) < sextNat sv (8 * n) then sv else m
  | 3 => sv | 4 => m ||| sv | 5 => m &&& sv
  | _ => if m = cv then sv else m

/-- A context after a slot of one word with no result of fixed latency and no branch: the count and the program counter have moved
on, what was due has landed, and only the scoreboard may have grown. -/
def passedOn (a b : Ctx) : Prop :=
  let c := a.landTo a.pipe.count
  let q := closeLoops c.pipe.pc (c.pipe.pc + 4) c.pipe.loops
  b.regs = c.regs ∧ b.sys = a.sys ∧ b.pipe.pc = q.2 ∧ b.pipe.loops = q.1 ∧ b.pipe.count = a.pipe.count + 1 ∧
  b.pipe.inflight = c.pipe.inflight ∧ b.pipe.shadow = a.pipe.shadow ∧ b.sched.run = .ready ∧ sameArch a b

end Sys2Proof.Claims

/-! ## Every slot -/

/-- R221: a slot of any lane that passes every check of R221 and waits for nothing issues: exec answers the state in which its results are
in flight, its effects have taken place and the next bundle is found. The checks are those of its own meaning, on the state with every due
result landed. -/
def Obligations.SlotsThatPassTheChecksRetire : Prop :=
  ∀ (s : State) (w : At) (i : Instr) (sl : SlotSem), slotOf i = some sl → Quiet s w → sl.ill = false →
    sl.priv (s.ctx w).sup = false → (∀ e, sl.loop = some e → sl.words ≤ e) → sl.wait w (s.landed w) = none →
    sl.trap5 w (s.landed w) = none → sl.adds w (s.landed w) ≤ 2 →
    exec i s = .next ((s.landed w).retire w [sl] sl.words)

/-- R221, R222: a slot whose fields are not those of its instruction traps ILLEGAL with its lane, before any other check, and has no other
effect. -/
def Obligations.IllFormedSlotsTrap : Prop :=
  ∀ (s : State) (w : At) (i : Instr) (sl : SlotSem), slotOf i = some sl → s.cur = some w → (s.ctx w).mayIssue = true →
    wellFormed i = false → exec i s = .next (s.takeTrap w (trapAt 1 0 0 sl.lane 0) (s.ctx w).pipe.pc sl.words)

/-! ## Memory -/

/-- R4, R48, R390: a byte written at its home reads back there, and every other byte at its home reads as before (a host-homed byte while
its line is not held, or the host path is coherent). -/
def Obligations.HomeWriteReads : Prop :=
  ∀ (s : State) (asid pa q : Nat) (b : Byte),
    (isHostHomed pa = true → s.coherentHost = true ∨ tget? s.l2 (pa / 128) = none) →
    (s.homePut asid pa b).homeByte q = if q = pa then b else s.homeByte q

/-- R72, R73: a core's write of a byte of HBM at its cluster is what that cluster then reads there; every other byte reads as before in that
cluster and in every other cluster, and no home slice is written, where the line is held or its set has room.
The line that a full set displaces is the model's choice (log 3). -/
def Obligations.ClusterWriteReads : Prop :=
  ∀ (s : State) (core asid pa : Nat) (b : Byte), isHbm pa = true → roomy s (clusterOf core) pa 1 →
    let clu := clusterOf core
    let t := s.cluWrite clu (some core) asid [(pa, b)]
    (∀ q, t.cluByte clu q = if q = pa then b else s.cluByte clu q) ∧ (∀ q, t.homeByte q = s.homeByte q) ∧
    ∀ c, c ≠ clu → ∀ q, t.cluByte c q = s.cluByte c q

/-- R73, R290, R292: a plain LD of a page that the cluster caches completes: its value, the n bytes at the address as the cluster sees
them, little-endian, sign- or zero-extended, is scoreboarded to its destination (x0 and y0 take none); every byte of memory reads as
before, and no register changes until the result lands.
That the access is performed as the slot issues is the model's choice (log 3). -/
def Obligations.ScalarLoads : Prop :=
  ∀ (s : State) (w : At) (f : SFile) (sz : LdSz) (o : LmOpd) (x : Xl), Quiet s w → o.ord = 0 → o.scope = 0 →
    let a := loadAddr (s.ctx w).regs sz o
    let clu := clusterOf w.core
    plainAccess (s.landed w) w a.1 a.2.1 .load x → roomy s clu x.pa a.2.1 →
    ∃ t, exec (.ld f sz o) s = .next t ∧
      (t.ctx w).pipe.sb = (if o.d = 0 then [] else [{
        file := sfile f, reg := o.d.toNat, mask := wholeMask, acc := 0, lo := 0, ready := true, sx := false,
        value := (if a.2.2 then BitVec.ofInt 64 (sextNat (ofBytes (seen s clu x.pa a.2.1)) (8 * a.2.1))
          else BitVec.ofNat 64 (ofBytes (seen s clu x.pa a.2.1))).setWidth 2048 }]) ∧
      passedOn (s.ctx w) (t.ctx w) ∧ (∀ q, t.cluByte clu q = s.cluByte clu q) ∧ t.mem = s.mem ∧ t.l2 = s.l2

/-- R73, R290, R293: a plain ST to a page that the cluster caches completes: the n bytes at the address take those of the register,
little-endian, and every other byte reads as before in every cluster and at every home; no register changes.
That the access is performed as the slot issues is the model's choice (log 3). -/
def Obligations.ScalarStores : Prop :=
  ∀ (s : State) (w : At) (f : SFile) (sz : StSz) (o : LmOpd) (x : Xl), Quiet s w → o.ord = 0 → o.scope = 0 →
    let a := storeAddr (s.ctx w).regs sz o
    let clu := clusterOf w.core
    let bs := toBytes a.2 ((s.ctx w).regs.getS f o.d).toNat
    plainAccess (s.landed w) w a.1 a.2 .store x → badCanon a.1 = false → roomy s clu x.pa a.2 →
    ∃ t, exec (.st f sz o) s = .next t ∧ passedOn (s.ctx w) (t.ctx w) ∧ (t.ctx w).pipe.sb = [] ∧
      (∀ q, t.cluByte clu q = if x.pa ≤ q ∧ q < x.pa + a.2 then bs.getD (q - x.pa) 0 else s.cluByte clu q) ∧
      (∀ q, t.homeByte q = s.homeByte q) ∧ ∀ c, c ≠ clu → ∀ q, t.cluByte c q = s.cluByte c q

/-- R297: an atomic on a translated line gives the old value of its n bytes and leaves there the sum, the lesser, the greater, the operand,
the union, the intersection, or the operand if the old value equals the comparand, at the place of the access. A relaxed atomic on a page
that the cluster caches, with a destination, completes so, with the old value scoreboarded, or with ATCAS2 its two halves.
That the access is performed as the slot issues is the model's choice (log 3). -/
def Obligations.Atomics : Prop :=
  (∀ (s : State) (w : At) (x : Xl) (asid op n sv cv : Nat), isHbm (x.pa + n) = true → x.cpol = 0 →
    roomy s (clusterOf w.core) x.pa n → op ≤ 7 → n ∈ [4, 8, 16] → sv < 2 ^ (8 * n) →
    let clu := clusterOf w.core
    let m := ofBytes (seen s clu x.pa n)
    let r := s.performAtomic w x ⟨false, 0⟩ asid op n sv cv
    r.1 = m ∧ seen r.2 clu x.pa n = toBytes n (atomicRule op n m sv cv) ∧
    ∀ q, q < x.pa ∨ x.pa + n ≤ q → r.2.cluByte clu q = s.cluByte clu q) ∧
  ∀ (s : State) (w : At) (op n : Nat) (o : LaOpd) (x : Xl) (i : Instr), Quiet s w → o.ord = 0 → o.scope.toNat ≤ 2 → o.d ≠ 0 →
    (op, i) ∈ [(0, Instr.atadd o), (1, .atmin o), (2, .atmax o), (3, .atxch o), (4, .ator o), (5, .atand o), (6, .atcas o),
      (7, .atcas2 o)] →
    (if op = 7 then o.y = false ∧ o.sz = 0 ∧ o.d.toNat % 2 = 0 ∧ o.s.toNat % 2 = 0 else o.sz.toNat ≤ 1) →
    n = (if op = 7 then 16 else if o.sz = 0 then 4 else 8) →
    let t := s.landed w
    let r := (s.ctx w).regs
    let f := if o.y then SFile.y else .x
    let val := fun (g : R5) => if op = 7 then (r.getX g.toNat).toNat + 2 ^ 64 * (r.getX (g.toNat + 1)).toNat
      else (r.getS f g).toNat % 2 ^ (8 * n)
    let a := r.getA o.a.toNat
    let clu := clusterOf w.core
    let m := ofBytes (seen s clu x.pa n)
    a.toNat % n = 0 → plainAccess t w a n .rmw x → roomy s clu x.pa n → (∀ l ∈ linesOf x.pa n, t.recAt clu true l = none) → ∃ u,
      exec i s = .next u ∧ passedOn (s.ctx w) (u.ctx w) ∧
      (u.ctx w).pipe.sb = ((List.range (if op = 7 then 2 else 1)).map fun j =>
        { file := sfile f, reg := o.d.toNat + j, mask := wholeMask, value := BitVec.ofNat 2048 (m / 2 ^ (64 * j) % 2 ^ 64),
          acc := 0, lo := 64 * j, ready := true, sx := false }) ∧
      seen u clu x.pa n = toBytes n (atomicRule op n m (val o.s) (val o.d)) ∧
      ∀ q, q < x.pa ∨ x.pa + n ≤ q → u.cluByte clu q = s.cluByte clu q

/-- R294, R295: a vector load or store whose active elements are aligned and lie in plain memory completes, whatever its mask: a load
scoreboards the bits that its active elements fill, and no other bit, and changes no other register. Where the translations and the lines
are held by the core and its cluster, a load's bits are the bytes of memory at its elements' addresses and no byte of memory changes; a
store leaves there the bytes of its active elements, the highest element's where two overlap, and every other byte reads as before, in
every cluster and at every home.
That the accesses are performed as the slot issues is the model's choice (log 3). -/
def Obligations.VectorAccesses : Prop :=
  ∀ (s : State) (w : At) (i : Instr) (store : Bool) (d : R5) (n : Nat) (k : BitVec 3) (addr : Nat → W64) (x : Nat → Xl), Quiet s w →
    vectorRule (s.ctx w).regs i = some (store, d, n, k, addr) →
    let es := activeElems n ((s.ctx w).regs.getK k.toNat)
    let clu := clusterOf w.core
    noGlobal s → (s.core w.core).lees = [] →
    (∀ e ∈ es, (addr e).toNat % n = 0 ∧ plainAccess (s.landed w) w (addr e) n (if store then .store else .load) (x e)) →
    let held := ∀ e ∈ es, tlbHolds s w (addr e) n ∧ heldLines s clu (x e).pa n
    ∃ u, exec i s = .next u ∧
      (store = false → passedOn (s.ctx w) (u.ctx w) ∧ (∃ v, (u.ctx w).pipe.sb = [{
        file := .v, reg := d.toNat, mask := elemBits n es, value := v, acc := 0, lo := 0, ready := true, sx := false }] ∧
        (held → (v = es.foldl (fun v e => v ||| BitVec.ofNat 2048 (ofBytes (seen s clu (x e).pa n) * 2 ^ (8 * n * e))) 0) ∧
          (∀ q, u.cluByte clu q = s.cluByte clu q) ∧ u.mem = s.mem ∧ u.l2 = s.l2))) ∧
      (store = true → (u.ctx w).regs = (s.ctx w).regs ∧ (u.ctx w).sys = (s.ctx w).sys ∧ (u.ctx w).pipe.sb = [] ∧
        (u.ctx w).pipe.pc = (s.ctx w).pipe.pc + 4 ∧ (u.ctx w).pipe.count = (s.ctx w).pipe.count + 1 ∧
        (held → passedOn (s.ctx w) (u.ctx w) ∧
          (∀ q, u.cluByte clu q = es.foldl (fun b e => if (x e).pa ≤ q ∧ q < (x e).pa + n then
            BitVec.ofNat 8 (elem ((s.ctx w).regs.getV d.toNat) (8 * n) e / 2 ^ (8 * (q - (x e).pa))) else b) (s.cluByte clu q)) ∧
          (∀ q, u.homeByte q = s.homeByte q) ∧ ∀ c, c ≠ clu → ∀ q, u.cluByte c q = s.cluByte c q))

/-- R221, R291: a vector load of misaligned elements, an ordered LD or ST and an atomic at an address that is not a multiple of its size
trap ALIGN at the bundle with the first such address once nothing holds them, and have no other effect. -/
def Sys2Proof.Claims.AlignmentTraps : Prop :=
  ∀ (s : State) (w : At), Quiet s w →
    (∀ (f : SFile) (sz : LdSz) (o : LmOpd), o.ord = 1 → o.scope.toNat ≤ 5 →
      let a := loadAddr (s.ctx w).regs sz o
      a.1.toNat % a.2.1 ≠ 0 → unheld (s.landed w) w a.1 a.2.1 .load →
      exec (.ld f sz o) s = .next (s.takeTrap w (trapAt 8 1 0 4 a.1) (s.ctx w).pipe.pc 1)) ∧
    (∀ (f : SFile) (sz : StSz) (o : LmOpd), o.ord = 2 → o.scope.toNat ≤ 5 →
      let a := storeAddr (s.ctx w).regs sz o
      a.1.toNat % a.2 ≠ 0 → unheld (s.landed w) w a.1 a.2 .store →
      exec (.st f sz o) s = .next (s.takeTrap w (trapAt 8 2 0 4 a.1) (s.ctx w).pipe.pc 1)) ∧
    (∀ (o : LaOpd), o.ord ≠ 3 → o.scope.toNat ≤ 5 → o.sz.toNat ≤ 1 →
      let a := (s.ctx w).regs.getA o.a.toNat
      let t := s.takeTrap w (trapAt 8 (if o.d = 0 then 4 else 3) 0 4 a) (s.ctx w).pipe.pc 1
      let n := if o.sz = 0 then 4 else 8
      a.toNat % n ≠ 0 → unheld (s.landed w) w a n .rmw →
      exec (.atadd o) s = .next t ∧ exec (.atmin o) s = .next t ∧ exec (.atmax o) s = .next t ∧
      exec (.atxch o) s = .next t ∧ exec (.ator o) s = .next t ∧ exec (.atand o) s = .next t) ∧
    (∀ (d : R5) (a : BitVec 4) (k : BitVec 3) (disp : BitVec 8),
      let b := (s.ctx w).regs.getA a.toNat + 256 * disp.signExtend 64
      b.toNat % 4 ≠ 0 → (s.ctx w).regs.getK k.toNat ≠ 0 →
      (∀ i, i < 64 → ((s.ctx w).regs.getK k.toNat).getLsbD i = true → unheld (s.landed w) w (b + BitVec.ofNat 64 (4 * i)) 4 .load) →
      ∃ i, i < 64 ∧ ((s.ctx w).regs.getK k.toNat).getLsbD i = true ∧
        (∀ j, j < i → ((s.ctx w).regs.getK k.toNat).getLsbD j = false) ∧
        exec (.vld d a k disp) s = .next (s.takeTrap w (trapAt 8 1 0 4 (b + BitVec.ofNat 64 (4 * i))) (s.ctx w).pipe.pc 1))

/-- R61: a plain LD of a page that is not present holds its context and asks the page service once; declined, it traps PAGEFAULT with kind
NOTPRESENT. -/
def Sys2Proof.Claims.LoadsOfAbsentPages : Prop :=
  ∀ (s : State) (w : At) (f : SFile) (sz : LdSz) (o : LmOpd), Quiet s w → o.ord = 0 → o.scope = 0 →
    let a := loadAddr (s.ctx w).regs sz o
    let s1 := s.landed w
    isGlobal a.1 = false → (s.core w.core).lees = [] → noGlobal s →
    s1.coreWalkWait w.core (s1.ctx w).asid ((s1.ctx w).extentFor a.1.toNat a.2.1) a.1 a.2.1 = none →
    s1.parts w (s1.ctx w) a.1 a.2.1 .load = [(a.1, a.2.1, .error (.page 0))] →
    ((s.ctx w).sched.hold = none → exec (.ld f sz o) s = .next (s.stallAt w .waiting fun s =>
      (s.updSched w fun k => { k with hold := some ⟨(s.ctx w).asid, a.1, false⟩ }).pageRequest (dieOf w.core) (s.ctx w).asid
        a.1 0)) ∧
    (∀ h, (s.ctx w).sched.hold = some h → h.declined = true →
      exec (.ld f sz o) s = .next (s.takeTrap w (trapAt 6 1 0 4 a.1) (s.ctx w).pipe.pc 1))

/-- R61, R291: the traps of misaligned and of absent addresses. -/
def Obligations.MemoryTraps : Prop := Claims.AlignmentTraps ∧ Claims.LoadsOfAbsentPages

/-- R94, R290, R296: BLD and BST of a buffer address in range, aligned and untouched by a press complete. BLD gives the 8 or 256 bytes of the
buffer to its register with latency 4; BST writes its register's bytes there, and every other byte of the buffer reads as before. -/
def Obligations.BufferAccesses : Prop :=
  ∀ (s : State) (w : At) (o : LbOpd), Quiet s w → (lbWord (s.ctx w).regs o).2 = true →
    let a := (lbWord (s.ctx w).regs o).1
    let n := if o.x then 8 else 256
    let off := bufOff a
    o.space.toNat ≤ 1 → bufCore (clusterOf w.core) a = w.core → bufInRange a n = true →
    off % (if o.x then 8 else 32) = 0 → (s.core w.core).press = [] →
    noGlobal s → (s.core w.core).lees = [] → ((s.taskOf w).map (·.det)).getD false = false →
    let buf := fun (t : State) => if o.space.toNat = 0 then (t.core w.core).wb else (t.core w.core).ab
    exec (.bld o) s = .next (s.issued w 1
      [⟨if o.x then .x else .v, o.d.toNat, wholeMask, BitVec.ofNat 2048 (ofBytes (mread (buf s) off n)), 4⟩]) ∧
    ∃ t, exec (.bst o) s = .next t ∧ passedOn (s.ctx w) (t.ctx w) ∧ (t.ctx w).pipe.sb = [] ∧
      buf t = mwrite (buf s) off (if o.x then toBytes 8 ((s.ctx w).regs.getX o.d.toNat).toNat
        else toBytes 256 ((s.ctx w).regs.getV o.d.toNat).toNat) ∧
      (t.core w.core).cb = (s.core w.core).cb ∧ (∀ c, c ≠ w.core → t.core c = s.core c) ∧ t = { s with cores := t.cores }

/-- R76, R299 to R301, R304: FENCE with nothing outstanding, PREF, CFLUSH, CINV and SETKP complete: FENCE and PREF, and CFLUSH and CINV of a
scope below die, only advance the context; CFLUSH and CINV of a wider scope work on the lines of their range; SETKP writes its key's two bits
of KPERM, with 10 written as 00.
That PREF only advances and that SETKP writes 10 as 00 are readings (log 42); that CFLUSH and CINV complete as they issue is the model's choice (log 3). -/
def Obligations.FencesAndKeys : Prop :=
  ∀ (s : State) (w : At), Quiet s w →
    (∀ (scope : BitVec 3) (kind : BitVec 2), scope.toNat ≤ 5 → kind ≠ 3 → (s.core w.core).lees = [] → s.releases = [] → s.cacheOps = [] → noGlobal s →
      exec (.fence scope kind) s = .next (s.issued w 1 [])) ∧
    (∀ (a : BitVec 4) (level : BitVec 2) (disp : BitVec 8), level ≠ 3 →
      exec (.pref a level disp) s = .next (s.issued w 1 [])) ∧
    (∀ (d : R5) (a : BitVec 4) (scope : BitVec 3), (s.core w.core).lees = [] → s.releases = [] → noGlobal s →
      let t := s.landed w
      let c := t.ctx w
      (∀ v, t.coreWalkWait w.core c.asid (c.extentFor v.toNat 128) v 1 = none) →
      (scope.toNat ≤ 2 → exec (.cflush d a scope) s = .next (t.issued w 1 []) ∧ exec (.cinv d a scope) s = .next (t.issued w 1 [])) ∧
      (scope.toNat ≤ 5 →
        exec (.cflush d a scope) s =
          .next ((t.flushRange w c (c.regs.getA a.toNat) (c.regs.getX d.toNat).toNat scope.toNat false).issued w 1 []) ∧
        exec (.cinv d a scope) s =
          .next ((t.flushRange w c (c.regs.getA a.toNat) (c.regs.getX d.toNat).toNat scope.toNat true).issued w 1 []))) ∧
    (∀ (key : R5) (right : BitVec 2),
      exec (.setkp key right) s = .next ((s.issued w 1 []).updSys w fun y => { y with
        kperm := setFld y.kperm (2 * key.toNat + 1) (2 * key.toNat) (if right = 2 then 0 else right.toNat) }))

/-- R81 to R83: CASK.ALLOC of a line pins it, zeroed, for the context's ASID when CASKCTL leaves its way and no quota is spent, and gives
1; CASK.FREE frees the pinned lines of its own ASID in its range and gives their number. Both slots complete at a line's offset, with the
number scoreboarded, and trap ALIGN at any other.
The line that a full set displaces is the model's choice (log 3). -/
def Obligations.CaskLines : Prop :=
  (∀ (s : State) (clu asid l : Nat), l < 196608 → l / 16384 < min (fld (s.clu clu).caskctl 3 0) 12 →
    tget? (s.clu clu).cask l = none → s.caskSpent asid = false →
    ((s.caskAlloc clu asid 1 l 0).1 = 1 ∧
      tget? ((s.caskAlloc clu asid 1 l 0).2.clu clu).cask l = some { asid := asid, data := 0 }) ∧
    ∀ n, (s.caskFree clu asid l n).1 =
        ((s.clu clu).cask.filter fun p => l ≤ p.1 && p.1 < l + n && p.2.asid == asid).length ∧
      ∀ p ∈ ((s.caskFree clu asid l n).2.clu clu).cask, ¬ (l ≤ p.1 ∧ p.1 < l + n ∧ p.2.asid = asid)) ∧
  ∀ (s : State) (w : At) (d : R5) (a : BitVec 4) (n : BitVec 13), Quiet s w → (s.core w.core).lees = [] → noGlobal s →
    let t := s.landed w
    let off := bufOff ((s.ctx w).regs.getA a.toNat)
    let r := t.caskAlloc (clusterOf w.core) (s.ctx w).asid n.toNat (off / 128) 0
    let q := t.caskFree (clusterOf w.core) (s.ctx w).asid (off / 128) n.toNat
    let trap := s.takeTrap w (trapAt 8 0 0 4 (BitVec.ofNat 64 off)) (s.ctx w).pipe.pc 1
    (off % 128 = 0 →
      exec (.caskAlloc d a n) s =
        .next ((r.2.scoreboard w (sbNow .x d.toNat wholeMask (BitVec.ofNat 2048 r.1))).issued w 1 []) ∧
      exec (.caskFree d a n) s =
        .next ((q.2.scoreboard w (sbNow .x d.toNat wholeMask (BitVec.ofNat 2048 q.1))).issued w 1 [])) ∧
    (off % 128 ≠ 0 → exec (.caskAlloc d a n) s = .next trap ∧ exec (.caskFree d a n) s = .next trap)

/-! ## Encodings -/

/-- The words that the spec encodes in its worked examples decode to the instructions they stand for: Tables 10-15, 11-6, 07-11,
the words of the examples of the vector, memory and engine lanes, and those of R305 and R323. -/
def Obligations.WordsOfTheSpecDecode : Prop :=
  decodeBundle [0x0C080024, 0xB456789A] = some [⟨0, 2, some (.li .x 4 false 0x24 0x3456789A)⟩] ∧
  decodeBundle [0x00463200, 0x21040081, 0x45CA4008, 0xF103FFFE] = some [
    ⟨0, 1, some (.add .x 3 3 (.reg 4))⟩, ⟨2, 1, some (.vfma ⟨2, 0, 1, 0, 1⟩ none)⟩, ⟨4, 1, some (.ld .y .d64 ⟨5, 2, 0, 0, 8⟩)⟩,
    ⟨7, 1, some (.bnz false .x 7 0x7FFE)⟩] ∧
  decodeBundle [0x0C080024, 0x3456789A, 0x00463200, 0x21040081, 0x45CA4008, 0xF103FFFE] = none ∧
  decodeBundle [0x8C080024] = none ∧
  decodeBundle [0xF2500C03] = some [⟨7, 1, some (.loop (.imm 3) 3)⟩] ∧
  decodeBundle [0x00421100, 0x98021001] = some [⟨0, 1, some (.add .x 1 1 (.reg 2))⟩, ⟨1, 1, some (.add .y 1 1 (.imm 1))⟩] ∧
  decodeBundle [0x80C42200] = some [⟨0, 1, some (.mul .x 2 2 (.reg 4))⟩] ∧
  decodeBundle [0xF0A00002] = some [⟨7, 1, some (.bra true 2)⟩] ∧
  decodeBundle [0xAF824C08] = some [⟨2, 1, some (.cpy .va 1 1 6 0 true)⟩] ∧
  decodeBundle [0xAC080110] = some [⟨2, 1, some (.vgauss ⟨4, 0, 2, 1, 0⟩)⟩] ∧
  decodeBundle [0xC1C85100] = some [⟨4, 1, some (.ld .x .d64 ⟨4, 2, 4, 1, 0⟩)⟩] ∧
  decodeBundle [0xCBC85130] = some [⟨4, 1, some (.atcas2 ⟨4, 2, 4, 1, 6, false, 0⟩)⟩] ∧
  decodeBundle [0xD0580000] = some [⟨5, 1, some (.mma ⟨false, true, true, false, 0, 0, false⟩)⟩] ∧
  decodeBundle [0xE0405043] = some [⟨6, 1, some (.ewr 5 0x43)⟩] ∧
  decodeBundle [0xE0C0000D] = some [⟨6, 1, some (.cpyq 1 3)⟩] ∧
  decodeBundle [0xE1400012] = some [⟨6, 1, some (.rwait 0 2 1)⟩] ∧
  decodeBundle [0xE2406002] = some [⟨6, 1, some (.txput 6 2 false)⟩] ∧
  decodeBundle [0x66400103, 0x80000041] = some [⟨6, 2, some (.stepbRp 3 0x41)⟩] ∧
  decodeTc 0xA0200000 = some (.tcWaite 1) ∧ decodeTc 0x68600002 = some (.tcLde 3 2) ∧
  decodeTc 0x4C830020 = some (.tcShri 4 3 32) ∧ decodeTc 0xA4E43000 = some (.tcResend 7 4 6) ∧
  decodeTc 0x60C80000 = some (.tcLds 6 8 0) ∧ decodeTc 0xB8043000 = some (.tcSetwin 4 6) ∧
  decodeTc 0xA8600000 = some (.tcAck 3 false) ∧ decodeTc 0xFC000000 = some .tcHalt

/-- R219: the words of every slot that has an encoding are one bundle, which decodes to that slot alone, with its lane, its number of
words and every operand. -/
def Sys2Proof.Claims.SlotsDecodeAsEncoded : Prop :=
  ∀ (i : Instr) (e : SlotEnc), encodeSlot i = some e →
    decodeBundle e.words = some [⟨e.lane.toNat, e.words.length, some i⟩]

/-- R166, R167: a word of a transport core decodes to an instruction exactly if it is that instruction's encoding: no word has two
meanings, and no bit of an instruction's word is free. -/
def Obligations.TcWordsDecodeAsEncoded : Prop :=
  ∀ (w : W32) (i : Instr), decodeTc w = some i ↔ encodeTc i = some w

/-- R219: a one-word slot that decodes to an instruction is that instruction's encoding, whatever its stop bit. -/
def Sys2Proof.Claims.DecodedSlotsAreEncoded : Prop :=
  ∀ (w : W32) (i : Instr), decodeSlots 0 [w] = some [⟨laneOf w, 1, some i⟩] →
    ∃ e, encodeSlot i = some e ∧ e.ext = none ∧ e.lane.toNat = laneOf w ∧ e.op.toNat = opOf w ∧ e.pay = payOf w

/-- R219: slots decode as they are encoded, and encode as they are decoded. -/
def Obligations.SlotEncodingsAgree : Prop := Claims.SlotsDecodeAsEncoded ∧ Claims.DecodedSlotsAreEncoded

/-! ## Steps -/

namespace Sys2Proof.Claims

/-- The state in which the holder of core c issues in its turn: the states of its contexts are those of this cycle (R363). -/
def toIssue (s : State) (c : Nat) : State := (s.refreshRuns c).updCore c fun x => { x with yielded := false }

/-- It is the turn of core c, and its holder, context k, is Ready and is asked for no yield (R259, R364). -/
def turnOf (s : State) (c k : Nat) : Prop :=
  k < 4 ∧ s.agenda = [] ∧ s.focus = .core c ∧ s.awake = true ∧ s.gatedCycle = false ∧ (s.core c).holder = some k ∧
  (s.core c).yielded = false ∧ (s.ctx ⟨c, k⟩).trid.isSome = true ∧ ((s.refreshRuns c).ctx ⟨c, k⟩).sched.run = .ready

end Sys2Proof.Claims

/-- A step runs the decoded instruction. An event of the agenda is executed; a transport core executes the instruction that its word
decodes to, and nothing in the second cycle of its last one (R155); a core issues the slots of the bundle that the words at its holder's program counter decode to, and a bundle of one slot is
that instruction, executed by the holder.
The order of turns and the agenda are the model's choice (log 1). -/
def Obligations.StepRunsTheDecodedInstruction : Prop :=
  (∀ (s : State) (i : Instr) (l : List Instr), s.agenda = i :: l → step s = exec i { s with agenda := l }) ∧
  (∀ (s : State) (d : Nat), s.agenda = [] → s.focus = .tc d → (s.die d).tc.busy ≠ 0 →
    step s = .next (s.updTc d fun t => { t with busy := t.busy - 1 }).passTurn) ∧
  (∀ (s : State) (d : Nat) (i : Instr), s.agenda = [] → s.focus = .tc d → (s.die d).tc.state = 1 → s.board.powered = true →
    (s.die d).tc.busy = 0 → decodeTc (tget 0 (s.die d).tc.imem (s.die d).tc.pc.toNat) = some i → step s = afterTurn (exec i s)) ∧
  (∀ (s : State) (c k : Nat) (ws : List W32) (ds : List SlotDec), turnOf s c k →
    let w : At := ⟨c, k⟩
    let s1 := toIssue s c
    s1.bundleWords w 8 (s1.ctx w).pipe.pc = .ok ws → decodeBundle ws = some ds →
    step s = .next ((s1.fetchWords w ws.length).issueBundle w (ds.map semOf) ws.length).passTurn) ∧
  (∀ (s : State) (c k : Nat) (ws : List W32) (lane : Nat) (i : Instr) (sl : SlotSem), turnOf s c k →
    let w : At := ⟨c, k⟩
    let s1 := toIssue s c
    s1.bundleWords w 8 (s1.ctx w).pipe.pc = .ok ws → decodeBundle ws = some [⟨lane, ws.length, some i⟩] →
    slotOf i = some sl → sl.words = ws.length → step s = afterTurn (exec i (s1.fetchWords w ws.length)))

/-- R158: a word that decodes to no instruction stops a running transport core: STATE becomes fault (3), CAUSE illegal word (1), and
TCSTAT's PC is the word's index. -/
def Obligations.IllegalTcWordsStopTheCore : Prop :=
  ∀ (s : State) (d : Nat), s.agenda = [] → s.focus = .tc d → (s.die d).tc.state = 1 → s.board.powered = true →
    (s.die d).tc.busy = 0 → decodeTc (tget 0 (s.die d).tc.imem (s.die d).tc.pc.toNat) = none →
    step s = .next (s.tcFault d 1).passTurn ∧
    ((s.tcFault d 1).die d).tc.state = 3 ∧ ((s.tcFault d 1).die d).tc.cause = 1 ∧
    ((s.tcFault d 1).die d).tc.statPc = (s.die d).tc.pc

/-- Every instruction and every event ends in a next state, in every state: traps are taken, and nothing stops the machine. -/
def Obligations.ExecEndsInANextState : Prop := ∀ (i : Instr) (s : State), ∃ t, exec i s = .next t

/-- The memories of the state after reset are in their canonical form.
The form is the model's (log 4). -/
def Obligations.ResetIsSafe : Prop := Safe State.reset

/-- Every step keeps every memory in its canonical form, from any state, whatever the agenda holds.
The form is the model's (log 4). -/
def Obligations.StepsKeepMemoriesCanonical : Prop := ∀ (s t : State), Safe s → step s = .next t → Safe t

/-- R157, R159, R364, R410, Tables 11-4, 17-3 and 19-3: what reset leaves. Every context is Idle with KPERM all ones, in user mode and
with nothing in flight; every transport core is stopped with LIMIT 65,536 and an empty queue; every class's selector pointer is 3; no
cask line is pinned and no line is cached; no die's trace ring is enabled; the host link is down and not fenced.
That the state after reset is that of step 2 of the sequence is log 9. -/
def Obligations.WhatResetLeaves : Prop :=
  (∀ w : At, let c := State.reset.ctx w
    c.sched.run = .idle ∧ c.trid = none ∧ c.sys.kperm = BitVec.allOnes 64 ∧ c.sup = false ∧ c.inh = false ∧
    c.pipe.inflight = [] ∧ c.pipe.sb = [] ∧ c.pipe.loops = [] ∧ c.evq = [] ∧ c.copyq = []) ∧
  (∀ d, (State.reset.die d).tc.state = 0 ∧ (State.reset.die d).tc.limit = 65536 ∧ (State.reset.die d).tc.queue = [] ∧
    (State.reset.die d).trace.ctl = 0) ∧
  (∀ c k, tget 3 (State.reset.core c).ptr k = 3) ∧ (∀ c, (State.reset.core c).wb = [] ∧ (State.reset.core c).ab = [] ∧
    (State.reset.core c).cb = []) ∧
  (∀ c, (State.reset.clu c).cask = [] ∧ (State.reset.clu c).cc = []) ∧
  State.reset.link.up = false ∧ State.reset.link.fenced = false ∧ State.reset.board.limit = 3200

/-! ## Registers and results -/

/-- The lane of an instruction with a register field that names a register beyond its file: a number of 16 or more for a, 8 or more
for k or e, 4 or more for tl (R217). -/
def Sys2Proof.Claims.beyond : Instr → Option Nat
  | .cpy l d sf a _ dk =>
    if (Claims.fileOfCode sf.toNat).any (fun f => fileSize f ≤ a.toNat) ∨
      (Claims.fileOfLane l dk).any (fun f => fileSize f ≤ d.toNat) then
      some (match l with | .sx => 0 | .sy => 1 | .va => 2 | .fm => 3 | .ls => 4)
    else none
  | .cpye o => if 8 ≤ o.va.toNat then some 3 else none
  | .amov d _ _ => if 16 ≤ d.toNat then some 4 else none
  | .ainc d _ _ => if 16 ≤ d.toNat then some 4 else none
  | _ => none

/-- R216, R217: x0 and y0 read 0 and k0 reads all ones, whatever is written to them; a write to any other register of a file reads back
in the bits it masks, and changes no other register of any file. A slot that names a register beyond its file traps ILLEGAL at issue. -/
def Obligations.RegistersReadBack : Prop :=
  (fileSize .x = 32 ∧ fileSize .y = 32 ∧ fileSize .v = 32 ∧ fileSize .k = 8 ∧ fileSize .a = 16 ∧ fileSize .e = 8 ∧ fileSize .tl = 4) ∧
  (∀ (s : State) (w : At) (i : Instr) (lane : Nat), Claims.beyond i = some lane → s.cur = some w → (s.ctx w).mayIssue = true →
    exec i s = .next (s.takeTrap w (trapAt 1 0 0 lane 0) (s.ctx w).pipe.pc 1)) ∧
  ∀ (r : Regs) (mask v : VReg),
    (r.getX 0 = 0 ∧ r.getY 0 = 0 ∧ r.getK 0 = BitVec.allOnes 64) ∧
    (r.put .x 0 mask v = r ∧ r.put .y 0 mask v = r ∧ r.put .k 0 mask v = r) ∧
    (∀ (f : RFile) (n : Nat), f ≠ .v → deadReg f n = false →
      (r.put f n mask v).get f n = (r.get f n &&& ~~~(mask.setWidth 64)) ||| (v.setWidth 64 &&& mask.setWidth 64)) ∧
    (∀ n, (r.put .v n mask v).getV n = (r.getV n &&& ~~~mask) ||| (v &&& mask)) ∧
    (∀ (f g : RFile) (n m : Nat), (f, n) ≠ (g, m) → (r.put f n mask v).get g m = r.get g m) ∧
    ∀ (f : RFile) (n m : Nat), (f, n) ≠ (.v, m) → (r.put f n mask v).getV m = r.getV m

/-- The frame of a slot whose only effect is to put results in flight: no byte of memory at any home or in any cluster, no buffer, no
other context, no system register, no engine register, event, descriptor or scoreboard entry changes; and no register but those that the
results, new or already in flight, name ever takes a new value from them. -/
def Sys2Proof.Claims.ResultsAreTheOnlyChange : Prop :=
  ∀ (s : State) (w : At) (rs : List Res) (count : Nat) (next : List LoopEnt × W64),
    let t := s.moved w rs count next
    onlyCtx s t w ∧ sameArch (s.ctx w) (t.ctx w) ∧ (t.ctx w).sys = (s.ctx w).sys ∧ (t.ctx w).pipe.sb = (s.ctx w).pipe.sb ∧
    (t.ctx w).pipe.shadow = (s.ctx w).pipe.shadow ∧
    (∀ q, t.homeByte q = s.homeByte q) ∧ (∀ clu q, t.cluByte clu q = s.cluByte clu q) ∧
    (∀ k, (t.core k).wb = (s.core k).wb ∧ (t.core k).ab = (s.core k).ab ∧ (t.core k).cb = (s.core k).cb) ∧
    ∀ (f : RFile) (m j : Nat), (∀ r ∈ rs, (r.file, r.reg) ≠ (f, m)) →
      (∀ g ∈ (s.ctx w).pipe.inflight, (g.file, g.reg) ≠ (f, m)) →
      if f = .v then ((t.ctx w).landTo j).regs.getV m = (s.ctx w).regs.getV m
      else ((t.ctx w).landTo j).regs.get f m = (s.ctx w).regs.get f m

/-- R231: a bundle that issues at count n reads every result due at or before n and none due later: a result issued at count n with
latency L is in flight until count n + L. Beside its results, a slot that only puts results in flight changes nothing. -/
def Obligations.ResultsLandAtTheirCount : Prop :=
  Claims.ResultsAreTheOnlyChange ∧
  (∀ (s : State) (core ctx : Nat), ∃ t, exec (.fixedResultLand core ctx) s = .next t ∧
    (t.ctx ⟨core, ctx⟩).pipe.inflight =
      (s.ctx ⟨core, ctx⟩).pipe.inflight.filter (fun f => (s.ctx ⟨core, ctx⟩).pipe.count ≤ f.due) ∧
    (t.ctx ⟨core, ctx⟩).pipe.count = (s.ctx ⟨core, ctx⟩).pipe.count ∧ ∀ w, w ≠ ⟨core, ctx⟩ → t.ctx w = s.ctx w) ∧
  ∀ (c : Ctx) (n : Nat) (f : RFile) (m : Nat) (v : W64) (lat : Nat), f ≠ .v → deadReg f m = false → c.pipe.inflight = [] →
    0 < lat →
    let p : Ctx := { c with pipe := c.pipe.push n [Res.w f m v lat] }
    (∀ k, k < n + lat → (p.landTo k).regs.get f m = c.regs.get f m) ∧
    ∀ k, n + lat ≤ k → (p.landTo k).regs.get f m = v ∧ (p.landTo k).pipe.inflight = []

/-- R233: a scoreboarded result whose data has arrived is written when it lands and its entry is cleared; one whose data has not
arrived, and one that does not exist, changes nothing. A bundle that reads or writes its register stalls until then. -/
def Obligations.ScoreboardedResultsLand : Prop :=
  (∀ (s : State) (core ctx i : Nat) (e : SbEnt), (s.ctx ⟨core, ctx⟩).pipe.sb[i]? = some e → e.ready = true →
    exec (.scoreboardResultLand core ctx i) s = .next (s.updCtx ⟨core, ctx⟩ fun c => { c with
      regs := c.regs.put e.file e.reg e.mask e.value, pipe := { c.pipe with sb := c.pipe.sb.eraseIdx i } })) ∧
  (∀ (s : State) (core ctx i : Nat), (∀ e, (s.ctx ⟨core, ctx⟩).pipe.sb[i]? = some e → e.ready = false) →
    exec (.scoreboardResultLand core ctx i) s = .next (s.updCtx ⟨core, ctx⟩ id)) ∧
  ∀ (s : State) (w : At) (i : Instr) (sl : SlotSem), slotOf i = some sl → s.cur = some w → (s.ctx w).mayIssue = true →
    sl.ill = false → sl.priv (s.ctx w).sup = false → sl.loop = none →
    ((∃ r ∈ sl.reads, ((s.landed w).ctx w).pipe.scoreboarded r.1 r.2 = true) ∨
      ∃ r ∈ sl.writes, deadReg r.1 r.2 = false ∧ ((s.landed w).ctx w).pipe.scoreboarded r.1 r.2 = true) →
    exec i s = .next (s.stallAt w .stalled id)

/-! ## The transport core (R154 to R178) -/

namespace Sys2Proof.Claims

/-- Register t of a transport core; t0 reads 0. -/
def tr (t : Tc) (r : R5) : W64 := if r = 0 then 0 else tget 0 t.t r.toNat

/-- Register and value of the transport-core instructions that only write a register (R168 to R171). -/
def tcRule (t : Tc) : Instr → Option (R5 × W64)
  | .tcAdd d a b => some (d, tr t a + tr t b)
  | .tcSub d a b => some (d, tr t a - tr t b)
  | .tcAnd d a b => some (d, tr t a &&& tr t b)
  | .tcOr d a b => some (d, tr t a ||| tr t b)
  | .tcXor d a b => some (d, tr t a ^^^ tr t b)
  | .tcShl d a b => some (d, BitVec.ofNat 64 ((tr t a).toNat * 2 ^ ((tr t b).toNat % 64)))
  | .tcShr d a b => some (d, BitVec.ofNat 64 ((tr t a).toNat / 2 ^ ((tr t b).toNat % 64)))
  | .tcSltu d a b => some (d, if (tr t a).toNat < (tr t b).toNat then 1 else 0)
  | .tcAddi d a n => some (d, tr t a + BitVec.ofInt 64 n.toInt)
  | .tcAndi d a n => some (d, tr t a &&& BitVec.ofNat 64 n.toNat)
  | .tcShli d a n => some (d, BitVec.ofNat 64 ((tr t a).toNat * 2 ^ n.toNat))
  | .tcShri d a n => some (d, BitVec.ofNat 64 ((tr t a).toNat / 2 ^ n.toNat))
  | .tcLi d n => some (d, BitVec.ofInt 64 n.toInt)
  | .tcLis d n => some (d, BitVec.ofNat 64 ((tr t d).toNat * 65536 + n.toNat))
  | .tcLde d n => some (d, match t.cur, n.toNat with
    | some e, 0 => e.w0 | some e, 1 => e.w1 | some e, 2 => e.w2 | some e, 3 => e.w3 | _, _ => 0)
  | .tcLdp d n => some (d, match t.cur with
    | none => 0
    | some e => match (match e.held with
        | some p => some p
        | none => e.hdr.map MsgHdr.pkt) with
      | none => 0
      | some p => match n.toNat with
        | 0 => p.w0
        | 1 => p.w1
        | 2 => p.w2
        | 3 => p.w3
        | k => if 515 < k then 0 else w64 ((List.range 8).map fun i =>
            if 8 * (k - 4) + i < fld p.w0 12 0 then p.payload.getD (8 * (k - 4) + i) 0 else 0))
  | _ => none

/-- The target of the transport core's branches, where they take it (R172), as an instruction index. -/
def tcTarget (t : Tc) : Instr → Option Int
  | .tcBeq a b off => some (if tr t a = tr t b then t.pc.toNat + off.toInt else t.pc.toNat + 1)
  | .tcBne a b off => some (if tr t a = tr t b then t.pc.toNat + 1 else t.pc.toNat + off.toInt)
  | .tcBltu a b off => some (if (tr t a).toNat < (tr t b).toNat then t.pc.toNat + off.toInt else t.pc.toNat + 1)
  | .tcJmp off => some (t.pc.toNat + off.toInt)
  | .tcCall off => some (t.pc.toNat + off.toInt)
  | .tcRet => some (tr t 31).toNat
  | _ => none

/-- Whether the transport core's branches take their branch (R172). -/
def tcTaken (t : Tc) : Instr → Bool
  | .tcBeq a b _ => tr t a == tr t b
  | .tcBne a b _ => tr t a != tr t b
  | .tcBltu a b _ => Nat.blt (tr t a).toNat (tr t b).toNat
  | _ => true

/-- Transport core d runs and is in focus. -/
def tcRuns (s : State) (d : Nat) : Prop := s.focus = .tc d ∧ (s.die d).tc.state = 1

/-- Register r written and the program counter at the next word; t0 discards. -/
def tcWrote (s : State) (d : Nat) (r : R5) (v : W64) : State :=
  s.updTc d fun t => { (if r = 0 then t else { t with t := tset t.t r.toNat v }) with pc := t.pc + 1 }

end Sys2Proof.Claims

/-- R168 to R171: the instructions of a transport core that only write a register write the value of their rule to it (t0 discards) and go
on to the next word; nothing else of the machine changes. -/
def Sys2Proof.Claims.TcResults : Prop :=
  ∀ (s : State) (d : Nat) (i : Instr) (r : R5) (v : W64), tcRuns s d → (s.die d).tc.pc ≠ 16383 →
    tcRule (s.die d).tc i = some (r, v) → exec i s = .next (tcWrote s d r v)

/-- R155, R170, R171: LDS and STS reach the 8-byte word at ta + imm of state memory, LDS in two cycles, and fault SMEM (3) where the
address is not a multiple of 8 or is 0x40000 or more; STP replaces a word of the held packet or header. -/
def Sys2Proof.Claims.TcMemory : Prop :=
  ∀ (s : State) (d : Nat), tcRuns s d → (s.die d).tc.pc ≠ 16383 →
    (∀ (r a : R5) (n : BitVec 16),
      let x := ((tr (s.die d).tc a).toInt + n.toInt) % 2 ^ 64
      (x % 8 = 0 → x < 0x40000 →
        exec (.tcLds r a n) s = .next ((tcWrote s d r (tget 0 (s.die d).tc.smem (x / 8).toNat)).updTc d fun t => { t with busy := 1 }) ∧
        exec (.tcSts r a n) s = .next (s.updTc d fun t =>
          { t with smem := tset t.smem (x / 8).toNat (tr t r), pc := t.pc + 1 })) ∧
      (¬ (x % 8 = 0 ∧ x < 0x40000) →
        exec (.tcLds r a n) s = .next (s.tcFault d 3) ∧ exec (.tcSts r a n) s = .next (s.tcFault d 3))) ∧
    (∀ (r : R5) (e : TcEvent) (p : Packet), (s.die d).tc.cur = some e → e.held = some p →
      exec (.tcStp r 2) s = .next (s.updTc d fun t =>
        { t with cur := some { e with held := some { p with w2 := tr t r } }, pc := t.pc + 1 })) ∧
    ∀ (r : R5) (e : TcEvent) (h : MsgHdr), (s.die d).tc.cur = some e → e.held = none → e.hdr = some h →
      exec (.tcStp r 2) s = .next (s.updTc d fun t =>
        { t with cur := some { e with hdr := some { h with pkt := { h.pkt with w2 := tr t r } } }, pc := t.pc + 1 })

/-- R168 to R171: the register instructions of a transport core, and those of its memory. -/
def Obligations.TcRegistersAndMemory : Prop := Claims.TcResults ∧ Claims.TcMemory

/-- R155, R158, R172: a branch goes to its target, in two cycles where it is taken, CALL with the index after it in t31; a target outside 0 to 16,383 faults IMEM (2) at the
branch, with no other effect. -/
def Obligations.TcBranches : Prop :=
  (∀ (a b : R5) (off : BitVec 16) (far : BitVec 26),
    encodeTc (.tcBeq a b off) = some (32#6 ++ (a ++ b ++ off)) ∧ encodeTc (.tcBne a b off) = some (33#6 ++ (a ++ b ++ off)) ∧
    encodeTc (.tcBltu a b off) = some (34#6 ++ (a ++ b ++ off)) ∧ encodeTc (.tcJmp far) = some (36#6 ++ far) ∧
    encodeTc (.tcCall far) = some (37#6 ++ far) ∧ encodeTc .tcRet = some (38#6 ++ 0#26)) ∧
  ∀ (s : State) (d : Nat) (i : Instr) (n : Int), tcRuns s d → tcTarget (s.die d).tc i = some n →
    (0 ≤ n → n ≤ 16383 → exec i s = .next (s.updTc d fun t =>
      { t with t := (match i with
                 | .tcCall _ => tset t.t 31 (BitVec.ofNat 64 (t.pc.toNat + 1))
                 | _ => t.t)
               pc := BitVec.ofNat 14 n.toNat, busy := if tcTaken t i then 1 else t.busy })) ∧
    (tcTaken (s.die d).tc i = true → n < 0 ∨ 16383 < n → exec i s = .next (s.tcFault d 2))

/-- R159, R164, R173 to R178: WAITE waits while the queue is empty and takes its first record else; RESEND, ACK and NACK of an
event with no packet held write 0 and answer the event; SETPATH, PATHDOWN, SETWIN, TMARM, TMCAN and POST fault RANGE (4) on an argument
out of range and take effect else; HALT stops the core in state 2. -/
def Sys2Proof.Claims.TcOperationRules : Prop :=
  ∀ (s : State) (d : Nat), tcRuns s d → (s.die d).tc.pc ≠ 16383 →
    let t := (s.die d).tc
    (∀ r : R5, t.cur = none → t.queue = [] → exec (.tcWaite r) s = .next (s.updTc d id)) ∧
    (∀ (r : R5) (e : TcEvent) (l : List TcEvent), t.cur = none → t.queue = e :: l →
      exec (.tcWaite r) s = .next ((tcWrote s d r (BitVec.ofNat 64 (fld e.w0 63 59))).updTc d fun t =>
        { t with queue := l, cur := some e, answered := false, heldAt := s.cycle })) ∧
    (∀ (r : R5) (b : Bool), (∀ e, t.cur = some e → e.held = none ∧ e.hdr = none) → ∃ u,
      exec (.tcAck r b) s = .next u ∧ exec (.tcNack r b) s = .next u ∧ (u.die d).tc.answered = true ∧
      tr (u.die d).tc r = 0 ∧ (u.die d).tc.pc = t.pc + 1 ∧ (u.die d).tx = (s.die d).tx) ∧
    (∀ (r a b : R5), (∀ f ∈ (s.die d).tx.flows, ∀ k ∈ f.2.pkts, k.acked = true ∨ k.wire = false) →
      exec (.tcResend r a b) s = .next ((tcWrote s d r 0).updTc d fun t => { t with answered := true })) ∧
    (∀ a b : R5, 8192 ≤ (tr t a).toNat →
      exec (.tcSetpath a b) s = .next (s.tcFault d 4) ∧ exec (.tcPathdown a b) s = .next (s.tcFault d 4) ∧
      exec (.tcSetwin a b) s = .next (s.tcFault d 4)) ∧
    (∀ a b : R5, 64 ≤ (tr t b).toNat → exec (.tcPathdown a b) s = .next (s.tcFault d 4)) ∧
    (∀ a b : R5, 256 ≤ (tr t a).toNat →
      exec (.tcTmarm a b) s = .next (s.tcFault d 4) ∧ exec (.tcTmcan b a) s = .next (s.tcFault d 4)) ∧
    (∀ a b : R5, (tr t a).toNat < 8192 →
      (fld (tr t b) 42 16 = 0 → fld (tr t b) 14 10 = 0 → bit (tr t b) 15 = false → ∃ u, exec (.tcSetpath a b) s = .next u ∧
        ((u.die d).tx.slot (tr t a).toNat (fld (tr t b) 5 0)).weight = fld (tr t b) 9 6) ∧
      ((tr t b).toNat < 64 → ∃ u, exec (.tcPathdown a b) s = .next u ∧
        ((u.die d).tx.slot (tr t a).toNat (tr t b).toNat).weight = 0 ∧
        ((u.die d).tx.slot (tr t a).toNat (tr t b).toNat).probing = true) ∧
      ∃ u, exec (.tcSetwin a b) s = .next u ∧
        ((u.die d).tx.peer (tr t a).toNat).win = min (max (fld (tr t b) 31 0) 4096) (2 ^ 24) ∧
        ((u.die d).tx.peer (tr t a).toNat).gap = fld (tr t b) 47 32) ∧
    (∀ r a b : R5, (tr t a).toNat < 256 → ∃ u v, exec (.tcTmarm a b) s = .next u ∧ exec (.tcTmcan r a) s = .next v ∧
      tget? (u.die d).tc.timers (tr t a).toNat = some (s.cycle + max 1 ((tr t b).toNat % 2 ^ 32)) ∧
      tget? (v.die d).tc.timers (tr t a).toNat = none ∧
      (r ≠ 0 → tr (v.die d).tc r = if (tget? t.timers (tr t a).toNat).isSome then 1 else 0)) ∧
    (∀ r a b : R5,
      (2 ^ 24 ≤ (tr t a).toNat → exec (.tcPost r a b) s = .next (s.tcFault d 4)) ∧
      ((tr t b).toNat ∉ [0, 6, 7] → exec (.tcPost r a b) s = .next (s.tcFault d 4)) ∧
      ((tr t a).toNat = 0 → (tr t b).toNat ∈ [0, 6, 7] →
        exec (.tcPost r a b) s = .next ((tcWrote s d r 0).updTc d fun t => { t with answered := true }))) ∧
    (t.cur = none → t.queue = [] → exec .tcHalt s = .next (s.updTc d fun t => { t with state := 2, statPc := t.pc }))

/-- R174, R178: RESEND, ACK, NACK and POST complete in every state of a running core. RESEND queues again the packets that were sent and are
not acknowledged among its up to 256, writes their number to td and answers the event; ACK and NACK take the held packet or header from the
event, answer it by their operands, and write 1 to td; POST writes to td whether the operation that it names took its status. Each goes on
to the next word. -/
def Sys2Proof.Claims.TcAnswersComplete : Prop :=
  ∀ (s : State) (d : Nat), tcRuns s d → (s.die d).tc.pc ≠ 16383 →
    let t := (s.die d).tc
    let at' := fun (u : State) (r : R5) (v : W64) => (u.die d).tc.pc = t.pc + 1 ∧ (u.die d).tc.answered = true ∧
      tr (u.die d).tc r = (if r = 0 then 0 else v) ∧ ∀ q, q ≠ r → tr (u.die d).tc q = tr t q
    (∀ (r a b : R5), ∃ u, exec (.tcResend r a b) s = .next u ∧
      let fid := (t.cur.map (·.flow)).getD 0
      let f := (s.die d).tx.flow fid
      let sent := fun (k : OutPkt) => k.wire && !k.acked && Nat.ble (tr t a).toNat k.psn &&
        Nat.blt k.psn ((tr t a).toNat + min 256 (tr t b).toNat)
      let stay := (s.die d).tx.noPath f.peer
      at' u r (if stay then 0 else BitVec.ofNat 64 (f.pkts.filter sent).length) ∧
      ((u.die d).tx.flow fid).pkts = if stay then f.pkts else
        f.pkts.map fun k => if sent k then { k with sent := false, backoff := false, missing := false } else k) ∧
    (∀ (e : TcEvent) (p : Packet), t.cur = some e → e.held = some p → ∀ r : R5,
      (∃ u, exec (.tcAck r false) s = .next u ∧ at' u r 1 ∧ (u.die d).tc.cur = some { e with held := none, hdr := none } ∧
        (u.die d).tx.answer = some (p.src, p.flow, p.psn, 0) ∧ (pktKey p, p.psn) ∈ (u.die d).tx.seen) ∧
      (∀ no : Bool, ∃ u, exec (.tcNack r no) s = .next u ∧ at' u r 1 ∧
        (u.die d).tc.cur = some { e with held := none, hdr := none } ∧
        (u.die d).tx.answer = some (p.src, p.flow, p.psn, if no then 2 else 1) ∧ (u.die d).tx.seen = (s.die d).tx.seen) ∧
      (pkMalformed p = none → pkOp p = 6 → exec (.tcAck r true) s = exec (.tcAck r false) s) ∧
      (pkMalformed p = none → pkOp p = 1 → exec (.tcAck r true) s = .next ((State.offerReduce (s.updTc d fun t =>
        (({ t with answered := true, cur := some { e with held := none, hdr := none } } : Tc).put r 1)) d p true).tcNext d))) ∧
    (∀ (e : TcEvent) (h : MsgHdr), t.cur = some e → e.held = none → e.hdr = some h → ∀ r : R5,
      (∃ u, exec (.tcNack r false) s = .next u ∧ at' u r 1 ∧
        (u.die d).tc.cur = some { e with held := none, hdr := none } ∧
        (u.die d).tx.answer = some (h.pkt.src, h.pkt.flow, h.pkt.psn, 1)) ∧
      ∃ u, exec (.tcAck r false) s = .next u ∧ at' u r 1 ∧ (u.die d).tc.cur = some { e with held := none, hdr := none } ∧
        (u.die d).tx.answer = some (h.pkt.src, h.pkt.flow, h.pkt.psn, 0) ∧ (pktKey h.pkt, h.pkt.psn) ∈ (u.die d).tx.seen) ∧
    ∀ (r a b : R5), (tr t a).toNat < 2 ^ 24 → (tr t b).toNat ∈ [0, 6, 7] →
      let n := (tr t a).toNat
      (∀ o, n ≠ 0 → (s.die d).tx.ops.find? (fun o => o.opid == n) = some o →
        ((tr t b).toNat ≠ 0 ∨ (o.started = true ∧ o.total ≠ 0 ∧ o.acked = o.total ∧ (o.ready = false ∨ o.status = 0)) → ∃ u,
          exec (.tcPost r a b) s = .next u ∧ at' u r 1 ∧ (u.die d).tx.ops.length = (s.die d).tx.ops.length ∧
          ∀ x ∈ (u.die d).tx.ops, x.opid = n → x.ready = true ∧ x.status = (tr t b).toNat) ∧
        ((tr t b).toNat = 0 → ¬ (o.started = true ∧ o.total ≠ 0 ∧ o.acked = o.total ∧ (o.ready = false ∨ o.status = 0)) → ∃ u,
          exec (.tcPost r a b) s = .next u ∧ at' u r 0 ∧ (u.die d).tx = (s.die d).tx)) ∧
      (n = 0 ∨ ((s.die d).tx.ops.find? (fun o => o.opid == n) = none ∧ ∀ f ∈ (s.die d).tx.flows, ∀ x ∈ f.2.accs, x.opid ≠ n) → ∃ u,
        exec (.tcPost r a b) s = .next u ∧ at' u r 0 ∧ (u.die d).tx = (s.die d).tx)

/-- R159, R164, R173 to R178: what the operations of a transport core do, and that RESEND, ACK, NACK and POST complete. -/
def Obligations.TcOperations : Prop := Claims.TcOperationRules ∧ Claims.TcAnswersComplete

/-- R157, R158, R162, R177: TC_START sets a core that does not run going at TCCTL.START with CAUSE 0; TC_STOP leaves state 0 with
TCSTAT's PC; TC_CLRREG clears the registers of a core that does not run; the watchdog stops a core (5) that holds a packet unanswered for
LIMIT cycles, and nothing else; a timer that is due is disarmed and raises its event; a mail raises one; TXDSTAT_CLR clears the counters. Before step 6 of the start-up the
register writes among them do nothing (R411).
That an event which cannot occur changes nothing is the model's choice (log 10). -/
def Obligations.TcControl : Prop :=
  ∀ (s : State) (d : Nat),
    let t := (s.die d).tc
    (6 ≤ s.board.boot → t.state ≠ 1 → exec (.tcStart d) s = .next (s.updTc d fun t => { t with state := 1, cause := 0, pc := t.start, busy := 0 })) ∧
    (t.state = 1 → exec (.tcStart d) s = .next s) ∧
    (6 ≤ s.board.boot → t.state = 1 → t.cur = none → t.queue = [] → exec (.tcStop d) s = .next (s.updTc d fun t => { t with state := 0, statPc := t.pc })) ∧
    (t.state ≠ 1 → exec (.tcStop d) s = .next s) ∧
    (6 ≤ s.board.boot → t.state ≠ 1 → t.cur = none → exec (.tcClrreg d) s = .next (s.updTc d fun t => { t with t := [] })) ∧
    (t.state = 1 → exec (.tcClrreg d) s = .next s) ∧
    ((t.state ≠ 1 ∨ t.cur = none ∨ t.limit = 0 ∨ s.cycle < t.heldAt + t.limit) → exec (.tcWatchdog d) s = .next s) ∧
    (∀ (e : TcEvent) (p : Packet), t.state = 1 → t.cur = some e → e.held = some p → t.limit ≠ 0 → t.heldAt + t.limit ≤ s.cycle →
      exec (.tcWatchdog d) s = .next (s.tcFault d 5)) ∧
    (∀ n, tget? t.timers n = none → exec (.tcTimerExpiry d n) s = .next s) ∧
    (∀ n at', tget? t.timers n = some at' → at' ≤ s.cycle → t.state = 1 → t.queue.length < 1024 → ∃ u e,
      exec (.tcTimerExpiry d n) s = .next u ∧ (u.die d).tc.timers = tdel t.timers n ∧
      (u.die d).tc.queue = t.queue ++ [e] ∧ fld e.w0 63 59 = 9 ∧ e.w2 = BitVec.ofNat 64 n ∧ (u.die d).tx = (s.die d).tx) ∧
    (∀ w0 w1, t.state = 1 → t.queue.length < 1024 → ∃ u e,
      exec (.tcMail d w0 w1) s = .next u ∧ (u.die d).tc.queue = t.queue ++ [e] ∧ e.w2 = w0 ∧ e.w3 = w1 ∧
      (u.die d).tc.timers = t.timers) ∧
    (s.board.boot < 6 → exec (.tcStart d) s = .next s ∧ exec (.tcStop d) s = .next s ∧ exec (.tcClrreg d) s = .next s ∧
      exec (.txdstatClr d) s = .next s) ∧
    (6 ≤ s.board.boot → ∃ u, exec (.txdstatClr d) s = .next u ∧ (u.die d).tc.evlost = 0 ∧ (u.die d).tc.defaults = 0 ∧ (u.die d).tx.stale = 0 ∧
      (u.die d).tx.unsupp = 0 ∧ (u.die d).tx.malform = 0 ∧ (u.die d).tx.duptag = 0 ∧ (u.die d).tx.flows = (s.die d).tx.flows)

/-! ## The MX lane and the presses (R180 to R199, R305) -/

/-- R181, R185, R190, R191, R199, R305: an MX slot whose word is good, that passes check 5 and waits for nothing, issues. MMA starts on its
press with its active copy of the descriptor set; MMAG is queued there, and tried in its cycle; MZERO's writes are due 4 + M cycles later, and MCVT's 24 + M cycles
later with the bytes that its source gives now. VC = 01 raises the set's vintage. -/
def Obligations.MatrixSlotsIssue : Prop :=
  ∀ (s : State) (w : At), Quiet s w →
    let t := s.landed w
    let k := t.core w.core
    (∀ o : MmaOpd, (o.z && o.a) = false → o.vc.toNat < 2 →
      let p := if o.p then 1 else 0
      (t.mmaTrap w p (t.mmaOp w false o) = none → t.mmaWait w p (t.mmaOp w false o) = none →
        exec (.mma o) s = .next (((t.startPress w.core p (t.mmaOp w false o)).vintage w o).issued w 1 [])) ∧
      (t.mmaTrap w p (t.mmaOp w true o) = none → t.mmagWait w p (t.mmaOp w true o) = none →
        exec (.mmag o) s = .next ((((t.updPress w.core p fun x =>
          { x with mmags := x.mmags ++ [t.mmaOp w true o] }).tryMmag w.core p (· == t.mmaOp w true o)).vintage w o).issued w 1
            []))) ∧
    (∀ (set : BitVec 4) (ef : Bool),
      let r := mdRegion ((t.ctx w).eng.mdSet set.toNat) ef
      k.press = [] → rangeTrap w.core r.ranges 2 = none → t.isDet w = false → noGlobal s → k.lees = [] →
      exec (.mzero set ef) s = .next ((t.updCore w.core fun k =>
        { k with mzeros := k.mzeros ++ [⟨w.ctx, r, t.cycle, t.cycle + 4 + r.m, 2, []⟩] }).issued w 1 [])) ∧
    ∀ o : McvtOpd, mcvtIllegalWord o = false →
      let d := (t.ctx w).eng.mdSet o.set.toNat
      let r := mdRegion d o.ef
      let sp := if o.dst then 0 else 1
      mcvtIllegalSet d o = false → rangeTrap w.core r.ranges 2 = none → rangeTrap w.core (mcvtRanges d o) sp = none →
      k.press = [] → k.mzeros = [] → t.isDet w = false → mcvtOverlaps d o = false →
      noGlobal s → k.lees = [] →
      exec (.mcvt o) s = .next ((t.updCore w.core fun k =>
        { k with mcvts := k.mcvts ++ [⟨w.ctx, r, t.cycle, t.cycle + 24 + r.m, sp, mcvtBytes k d o⟩] }).issued w 1 [])

/-- R109, R185, R187, R190, R191, R199: the results of a press operation are written to CB 200 + S cycles after its start, and it leaves the
press, with a record if it was gated; an MZERO writes 0 to its region and an MCVT its bytes in the cycle they are due; before that nothing
changes. An MMAG alone in its queue starts when its press is free, the other press streams nothing that it may
not draw beside, and its gates are ready.
That an event which cannot occur changes nothing is the model's choice (log 10). -/
def Obligations.PressEvents : Prop :=
  ∀ (s : State) (core : Nat),
    let early := fun (o : PressOp) => s.cycle < o.start + 200 + o.cycles
    (∀ p, (∀ o ∈ ((s.core core).pressOf p).ops, early o) → ((s.core core).pressOf p).held = [] →
      exec (.pressResultInPlace core p) s = .next s) ∧
    (∀ p o l, ((s.core core).pressOf p).ops = o :: l → o.start + 200 + o.cycles ≤ s.cycle → (∀ q ∈ l, early q) → o.cut = [] →
      (o.gated = false ∨ (s.ctx ⟨core, o.ctx⟩).evRoom = true) → ∃ t,
      exec (.pressResultInPlace core p) s = .next t ∧ ((t.core core).pressOf p).ops = l ∧
      (t.core core).cb = o.results.foldl (fun m r => mwrite m r.1 (toBytes 4 r.2.toNat)) (s.core core).cb ∧
      (t.core core).ab = (s.core core).ab ∧ (t.core core).wb = (s.core core).wb ∧
      (o.gated = false → (t.core core).ctxs = (s.core core).ctxs) ∧
      (o.gated = true → (t.ctx ⟨core, o.ctx⟩).evq = (s.ctx ⟨core, o.ctx⟩).evq ++
        [⟨recW0 (fld (wd o.words 4) 39 24) 1 0 0 0 (mdM o.words o.o.ef * mdN o.words o.o.ef), 0⟩])) ∧
    ((∀ z ∈ (s.core core).mzeros, s.cycle < z.done) → exec (.mzeroComplete core) s = .next s) ∧
    (∀ z l, (s.core core).mzeros = z :: l → z.done ≤ s.cycle → (∀ y ∈ l, s.cycle < y.done) → ∃ t,
      exec (.mzeroComplete core) s = .next t ∧ (t.core core).mzeros = l ∧ (∀ q, mget (t.core core).cb q =
        if ∃ m, m < z.region.m ∧ z.region.cell m 0 ≤ q ∧ q < z.region.cell m 0 + 4 * z.region.n then 0
        else mget (s.core core).cb q) ∧ (t.core core).ab = (s.core core).ab) ∧
    ((∀ z ∈ (s.core core).mcvts, s.cycle < z.done) → exec (.mcvtComplete core) s = .next s) ∧
    (∀ z l, (s.core core).mcvts = z :: l → z.done ≤ s.cycle → (∀ y ∈ l, s.cycle < y.done) → z.space ≤ 1 → ∃ t,
      exec (.mcvtComplete core) s = .next t ∧ (t.core core).mcvts = l ∧ (t.core core).cb = (s.core core).cb ∧
      (t.core core).wb = (if z.space = 0 then mwriteCells (s.core core).wb z.bytes else (s.core core).wb) ∧
      (t.core core).ab = (if z.space = 0 then (s.core core).ab else mwriteCells (s.core core).ab z.bytes)) ∧
    (∀ p, ((s.core core).pressOf p).mmags = [] → exec (.mmagStart core p) s = .next s) ∧
    ∀ p o, ((s.core core).pressOf p).mmags = [o] → ((s.core core).pressOf p).free o s.cycle = true →
      (s.core core).drawWaits p o s.cycle = false → s.gatesReady o = true → ∃ t, exec (.mmagStart core p) s = .next t ∧
      ((t.core core).pressOf p).mmags = [] ∧
      ((t.core core).pressOf p).ops.length = ((s.core core).pressOf p).ops.length + 1

/-! ## The EN lane: engine registers, copies, rings (R98 to R113, R306, R307) -/

namespace Sys2Proof.Claims

/-- Context w is quiet, and no install holds its EN lane (R306). -/
def enFree (s : State) (w : At) : Prop := Quiet s w ∧ (s.ctx w).eng.plwPend = none

/-- A copy-queue entry as it is queued. -/
def queued (c : Ctx) (kind : CopyKind) (q : Nat) (ws : List W64) (tag : Nat) (evt : Bool) (status : Nat) : CopyEnt :=
  { kind := kind, q := q, words := ws, tag := tag, evt := evt, kperm := c.sys.kperm, asid := c.asid, ring := none,
    started := false, next := 0, paused := none, status := status, fkind := 0, addr := 0, ended := false, sigs := 0, sums := [] }

/-- The status that a halted queue gives its new entries (R107). -/
def haltStatus (c : Ctx) (q : Nat) : Nat := if c.eng.haltq.testBit q then 4 else 0

/-- Entries of a copy queue. -/
def inQueue (c : Ctx) (q : Nat) : Nat := (c.copyq.filter fun e => e.q == q).length

end Sys2Proof.Claims

/-- R306: EWR writes the register that its number names, ERD scoreboards what it reads, an EWR of a channel or counter word traps PRIV, and
a number that is not in Table 13-6 traps ILLEGAL. A word of a set keeps what is written but for its reserved bits, which read 0.
That a slot of the same bundle does not see the write is a reading (log 32). -/
def Obligations.EngineRegisters : Prop :=
  (∀ (s : State) (w : At) (n : BitVec 12) (g : EngReg), enFree s w → engReg n.toNat = some g →
    (∀ a : R5, g.priv = false → (s.ctx w).eng.pipeReg g = false →
      exec (.ewr a n) s = .next (((s.landed w).updEng w fun e => e.write (s.ctx w).asid g ((s.ctx w).regs.getX a.toNat)).issued w 1 [])) ∧
    (∀ a : R5, g.priv = true → exec (.ewr a n) s = .next (s.takeTrap w (trapAt 3 0 0 6 0) (s.ctx w).pipe.pc 1)) ∧
    ∀ d : R5, exec (.erd d n) s = .next (((s.landed w).scoreboard w
      (sbNow .x d.toNat wholeMask (((s.landed w).engRead w g).setWidth 2048))).issued w 1 [])) ∧
  (∀ (s : State) (w : At) (n : BitVec 12) (a : R5), Quiet s w → engReg n.toNat = none →
    exec (.ewr a n) s = .next (s.takeTrap w (trapAt 1 0 0 6 0) (s.ctx w).pipe.pc 1) ∧
    exec (.erd a n) s = .next (s.takeTrap w (trapAt 1 0 0 6 0) (s.ctx w).pipe.pc 1)) ∧
  ∀ (e : Eng) (asid : Nat) (v : W64),
    (∀ i, i % 8 ≠ 6 → tget 0 (e.write asid (.cd i) v).cd i = v) ∧ (∀ i, i % 9 = 6 → tget 0 (e.write asid (.md i) v).md i = v) ∧
    (∀ i, i % 9 = 7 → ∀ k, k < 64 → (tget 0 (e.write asid (.md i) v).md i).getLsbD k = (v.getLsbD k && (k < 56 || 62 < k))) ∧
    (∀ i, tget 0 (e.write asid (.tpv i) v).tpv i = v) ∧ (e.write asid .dg v).dg = v ∧
    (e.write asid .cestat v).haltq = e.haltq &&& (15 - v.toNat % 16) ∧ e.write asid .plwstat v = e ∧ e.write asid .trigstat v = e ∧
    ∀ i, (e.write asid (.cd i) v).md = e.md ∧ ∀ j, j ≠ i → tget 0 (e.write asid (.cd i) v).cd j = tget 0 e.cd j

/-- R98, R104, R106, R107, R307, R324: CPYQ of a legal descriptor without RINGEN, QFENCE and DIGEST append their entries to the copy queues of
their context, with its KPERM and ASID, where those queues have room; an entry of a halted queue takes status 4. A full queue stalls them. -/
def Obligations.CopyQueueSlots : Prop :=
  ∀ (s : State) (w : At), enFree s w →
    let t := s.landed w
    let c := s.ctx w
    (∀ (q : BitVec 2) (n : BitVec 3),
      let ws := c.eng.cdSet n.toNat
      cpIllegal ws = false → cpRingen ws = false →
      (inQueue c q.toNat < 16 → t.sidesTrap w q.toNat (cpBufSides ws) = none →
        exec (.cpyq q n) s = .next ((t.updCtx w fun c => { c with
          copyq := c.copyq ++ [queued c .copy q.toNat ws (cpTag ws) (cpEvt ws) (haltStatus c q.toNat)] }).issued w 1 [])) ∧
      (16 ≤ inQueue c q.toNat → exec (.cpyq q n) s = .next (s.stallAt w .stalled id))) ∧
    (∀ (q : BitVec 2) (n : BitVec 3),
      let ws := c.eng.cdSet n.toNat
      let h := cpRing ws
      cpIllegal ws = true → inQueue c q.toNat < 16 →
      ¬ (cpRingen ws = true ∧ t.ringUsable w h = true ∧ c.eng.ringCount h ≤ ptrDiff (t.ringPtr w h).res (t.ringPtr w h).c) →
      exec (.cpyq q n) s = .next (s.takeTrap w (trapAt 1 0 0 6 0) c.pipe.pc 1)) ∧
    (∀ (a : R5) (mask : BitVec 4) (evt : Bool) (q : Nat), q < 4 → mask.getLsbD q = true → 16 ≤ inQueue c q →
      exec (.qfence a mask evt) s = .next (s.stallAt w .stalled id)) ∧
    (∀ (d a b : R5) (q : BitVec 2) (evt buf : Bool), 16 ≤ inQueue c q.toNat →
      exec (.digest d a b q evt buf) s = .next (s.stallAt w .stalled id)) ∧
    (∀ (a : R5) (mask : BitVec 4) (evt : Bool), mask ≠ 0 → (∀ q, q < 4 → mask.getLsbD q = true → inQueue c q < 16) →
      exec (.qfence a mask evt) s = .next (({ t.updCtx w fun c => { c with
        copyq := c.copyq ++ ((List.range 4).filter fun q => mask.getLsbD q).map fun q =>
          queued c (.fence mask.toNat s.fenceId) q [] (fld (c.regs.getX a.toNat) 15 0) evt (haltStatus c q) } with
        fenceId := s.fenceId + 1 } : State).issued w 1 [])) ∧
    ∀ (d a b : R5) (q : BitVec 2) (evt buf : Bool), inQueue c q.toNat < 16 →
      (buf = true → t.sidesTrap w q.toNat [(c.regs.getX a.toNat, false, [(0, (c.regs.getX b.toNat).toNat)])] = none) →
      exec (.digest d a b q evt buf) s = .next ((t.updCtx w fun c => { c with
        copyq := c.copyq ++ [queued c .digest q.toNat [c.regs.getX a.toNat, c.regs.getX b.toNat, if buf then 1 else 0]
          (fld (c.regs.getX d.toNat) 15 0) evt (haltStatus c q.toNat)] }).issued w 1 [])

/-- R110, R111, R113: RWAIT and RFREE of a usable ring wait until n slots are filled or free and then only advance; RADV.P moves the
producer's pointers and RADV.C the consumer's by n modulo 2³², in the ring's record or its pipe's store. An unusable ring, or an n of 0 or above
COUNT, traps RING with the handle in TADDR. -/
def Obligations.RingSlots : Prop :=
  ∀ (s : State) (w : At) (a : R5) (h : BitVec 4) (n8 : BitVec 8), enFree s w → (a = 0 ∨ n8 = 0) →
    let n := if a = 0 then n8.toNat else fld ((s.ctx w).regs.getX a.toNat) 31 0
    let p := (s.landed w).ringPtr w h.toNat
    let count := (s.ctx w).eng.ringCount h.toNat
    let trap := s.takeTrap w (trapAt 16 0 0 6 (BitVec.ofNat 64 h.toNat)) (s.ctx w).pipe.pc 1
    ((s.landed w).ringUsable w h.toNat = true → 1 ≤ n → n ≤ count →
      (n ≤ ptrDiff p.p p.c → exec (.rwait a h n8) s = .next ((s.landed w).issued w 1 [])) ∧
      (ptrDiff p.p p.c < n → exec (.rwait a h n8) s = .next (s.stallAt w .waiting id)) ∧
      (ptrDiff p.res p.c + n ≤ count → exec (.rfree a h n8) s = .next ((s.landed w).issued w 1 [])) ∧
      (count < ptrDiff p.res p.c + n → exec (.rfree a h n8) s = .next (s.stallAt w .waiting id)) ∧
      (p.res = p.p → ptrDiff p.res p.c + n ≤ count → ∃ t, exec (.radvP a h n8) s = .next t ∧ passedOn (s.ctx w) { t.ctx w with
        eng := (s.ctx w).eng } ∧ t.ringPtr w h.toNat = ⟨(p.p + n) % 2 ^ 32, p.c, (p.res + n) % 2 ^ 32⟩) ∧
      (n ≤ ptrDiff p.p p.c → ∃ t, exec (.radvC a h n8) s = .next t ∧ passedOn (s.ctx w) { t.ctx w with
        eng := (s.ctx w).eng } ∧ t.ringPtr w h.toNat = ⟨p.p, (p.c + n) % 2 ^ 32, p.res⟩)) ∧
    ((s.landed w).ringUsable w h.toNat = false ∨ n = 0 ∨ count < n →
      exec (.rwait a h n8) s = .next trap ∧ exec (.rfree a h n8) s = .next trap ∧ exec (.radvP a h n8) s = .next trap ∧
      exec (.radvC a h n8) s = .next trap)

/-! ## Transport operations, triggers and counters (R127, R134, R146, R147, R308 to R317) -/

namespace Sys2Proof.Claims

/-- What a transport slot of a kind asks of its descriptor set d, its operand xb and its communication context to issue at once (R138,
R141, R143, R310, R312 to R315): 0 TXPUT, 1 TXGET, 2 TXRED, 3 TXMC, 4 CHSEND, 7 RXPOST, 8 CHRECV. -/
def txReady (s : State) (w : At) (kind : Nat) (d : List W64) (xb : W64) : Prop :=
  let m := s.commOf (s.ctx w).asid
  let whole := fun (g : Nat) => g = 0 ∨ (m.coll g).broken = false
  let n := if kind = 3 then fld xb 7 0 else fld (wd d 1) 7 0
  let ch := m.chan n
  match kind with
  | 0 => tdFmt d < 14
  | 1 => tdHandle d = 0
  | 2 => tdFmt d ∈ [0, 1, 9, 10] ∧ whole (tdGroup d)
  | 3 => tdFmt d < 14 ∧ chV ch = true ∧ chKind ch = 1 ∧ whole (chGroup ch)
  | 4 => tdFmt d < 14 ∧ chV ch = true ∧ chFmt ch < 14 ∧ (chKind ch = 0 ∨ whole (chGroup ch)) ∧
    (∀ p, m.outstanding n p < chDepth ch) ∧ ∀ o ∈ (s.die (dieOf w.core)).tx.ops, o.kind ≠ 4 ∨ o.asid ≠ (s.ctx w).asid
  | 7 => tdFmt d < 14 ∧ xb ≠ 0 ∧ m.posted.length < 4096
  | 8 => tdFmt d < 14 ∧ chV ch = true ∧ chFmt ch < 14 ∧ (chKind ch = 0 → m.posted.length < 4096) ∧ (chKind ch = 0 ∨ whole (chGroup ch))
  | _ => False

end Sys2Proof.Claims

/-- R134, R138, R310 to R315, R317: a transport operation whose descriptor set, operand and channel are good, and which has its credits or its
place in the receive list, completes its issue: the context goes on, and the operation is open with a copy of the descriptor set, the
context's KPERM, its tag and its operands. TXFLUSH, TXFLUSH.P and an aligned CTRSNAP always do. A descriptor or channel that R310 or R315
turns away traps. -/
def Obligations.TransportSlotsIssue : Prop :=
  ∀ (s : State) (w : At), enFree s w →
    let t := s.landed w
    let c := t.ctx w
    let x := fun (r : R5) => c.regs.getX r.toNat
    let td := fun (set : BitVec 4) => c.eng.tdSet set.toNat
    let op := fun (kind : Nat) (d : List W64) (xa xb : W64) (ne : Bool) =>
      (t.issueOp w c.tridN c.asid kind d xa xb c.sys.kperm ne 2 false).issued w 1 []
    let trap := fun (r : Trap) => s.takeTrap w r (s.ctx w).pipe.pc 1
    (∀ (a b : R5) (set : BitVec 4) (ne : Bool),
      let m := s.commOf c.asid
      let ch := m.chan (fld (wd (td set) 1) 7 0)
      let ill := trap (trapAt 1 0 0 6 0)
      let not := trap (trapAt 14 0 0 6 0)
      (txReady s w 0 (td set) 0 → exec (.txput a set ne) s = .next (op 0 (td set) (x a) 0 ne)) ∧
      (txReady s w 1 (td set) 0 → exec (.txget a set ne) s = .next (op 1 (td set) (x a) 0 ne)) ∧
      (txReady s w 2 (td set) (x b) → exec (.txred a b set ne) s = .next (op 2 (td set) (x a) (x b) ne)) ∧
      (txReady s w 3 (td set) (x b) → exec (.txmc a b set ne) s = .next (op 3 (td set) (x a) (x b) ne)) ∧
      (txReady s w 4 (td set) 0 → exec (.chsend a set ne) s = .next (op 4 (td set) (x a) 0 ne)) ∧
      (txReady s w 7 (td set) (x b) → exec (.rxpost a b set ne) s = .next (op 7 (td set) (x a) (x b) ne)) ∧
      (txReady s w 8 (td set) 0 → exec (.chrecv a set ne) s = .next (op 8 (td set) (x a) 0 ne)) ∧
      (14 ≤ tdFmt (td set) → exec (.txput a set ne) s = .next ill ∧ exec (.txmc a b set ne) s = .next ill ∧
        (m.posted.length < 4096 → exec (.rxpost a b set ne) s = .next ill) ∧
        (chV ch = false → exec (.chsend a set ne) s = .next ill ∧ exec (.chrecv a set ne) s = .next ill)) ∧
      (tdHandle (td set) ≠ 0 → exec (.txget a set ne) s = .next ill) ∧
      (tdFmt (td set) ∉ [0, 1, 9, 10] → exec (.txred a b set ne) s = .next ill) ∧
      (tdFmt (td set) < 14 → (chV (m.chan (fld (x b) 7 0)) = false ∨ chKind (m.chan (fld (x b) 7 0)) ≠ 1) →
        exec (.txmc a b set ne) s = .next not) ∧
      (tdFmt (td set) < 14 → x b = 0 → m.posted.length < 4096 → exec (.rxpost a b set ne) s = .next not) ∧
      (tdFmt (td set) < 14 → chV ch = false → exec (.chsend a set ne) s = .next not ∧ exec (.chrecv a set ne) s = .next not) ∧
      (∀ r, t.opTrap c.asid 0 (td set) 0 = some r → exec (.txput a set ne) s = .next (trap r)) ∧
      (∀ r, t.txWait w 4 (td set) 0 = false → t.opTrap c.asid 4 (td set) 0 = some r →
        exec (.chsend a set ne) s = .next (trap r))) ∧
    (∀ (a b : R5) (all : Bool), (all = false ∨ b = 0) →
      exec (.txflush a b all) s = .next (op 5 [if all then 1 else 0] (x a) (x b) false) ∧
      exec (.txflushP a b all) s = .next (op 6 [if all then 1 else 0] (x a) (x b) false)) ∧
    (∀ (kind : Nat) (d : List W64) (xa xb : W64) (ne : Bool), kind ≤ 8 →
      let u := op kind d xa xb ne
      passedOn (s.ctx w) (u.ctx w) ∧ (u.ctx w).pipe.sb = [] ∧ (kind ∈ [0, 1, 5, 6, 7] → u.mem = s.mem) ∧
      ∃ o ∈ (u.die (dieOf w.core)).tx.ops, o.kind = kind ∧ o.words = d ∧ o.tag = fld xa 15 0 ∧ o.xb = xb ∧
        o.kperm = (s.ctx w).sys.kperm ∧ o.asid = (s.ctx w).asid ∧ o.trid = (s.ctx w).tridN ∧ o.core = w.core ∧ o.ctx = w.ctx ∧
        o.noev = ne ∧ o.source = 2) ∧
    (∀ a b : R5, (x a).toNat % 64 = 0 → ∃ u, exec (.ctrsnap a b) s = .next u ∧ (u.die (dieOf w.core)).tx.route = [] ∧
      ∃ o, (u.die (dieOf w.core)).tx.ops = (s.die (dieOf w.core)).tx.ops ++ [o] ∧ o.kind = 9 ∧ o.tag = fld (x b) 15 0) ∧
    (∀ a b : R5, (x a).toNat % 64 ≠ 0 → exec (.ctrsnap a b) s = .next (trap (trapAt 8 0 0 6 (x a)))) ∧
    ∀ (kind : Nat) (d : List W64) (xa : W64) (ne : Bool), kind ≤ 1 → ∃ o,
      ((t.issueOp w c.tridN c.asid kind d xa 0 c.sys.kperm ne 2 false).die (dieOf w.core)).tx.ops =
        (t.die (dieOf w.core)).tx.ops ++ [o] ∧ o.kind = kind ∧ o.words = d ∧ o.tag = fld xa 15 0 ∧ o.kperm = c.sys.kperm

/-- R127, R146, R147, R308, R316, R317: WAITT of a region that is ready only advances, and waits for one that is not; CTRADD adds to its
counter alone while no predicate is armed; TRIG of a predicate that does not hold arms the lowest free slot, and traps with no slot free.
How often a WAITT that waits reads the bitmap is log 54, that an entry which is not valid traps without a wait log 56. -/
def Obligations.TriggersAndCounters : Prop :=
  ∀ (s : State) (w : At), enFree s w →
    let t := s.landed w
    let c := t.ctx w
    let m := s.commOf c.asid
    (∀ (a : R5) (e : List W64) (lo hi : Nat → Nat), a.toNat ≤ 29 → t.waittRegion w a = some (e, lo, hi) →
      t.plPhase w 6 e lo hi = none →
      (t.regionReady c.asid e lo hi = true → exec (.waitt a) s = .next ((t.regionRead c.asid e lo hi).issued w 1 [])) ∧
      (t.regionReady c.asid e lo hi = false → exec (.waitt a) s =
        .next (s.stallAt w .waiting fun u => u.regionRead c.asid e lo hi))) ∧
    (∀ a : R5, a.toNat ≤ 29 → t.waittRegion w a = none →
      exec (.waitt a) s = .next (s.takeTrap w (trapAt 14 0 0 6 0) (s.ctx w).pipe.pc 1)) ∧
    (∀ (a : R5) (n : BitVec 3), m.trigs = [] → ∃ u, exec (.ctradd a n) s = .next u ∧ passedOn (s.ctx w) (u.ctx w) ∧
      ∀ k, (u.commOf c.asid).counter k = if k = n.toNat then m.counter k + c.regs.getX a.toNat else m.counter k) ∧
    (∀ (a b : R5) (set : BitVec 4) (opk : BitVec 3) (slot : TrigSlot), opk.toNat ≤ 4 → m.trigs = [] →
      slot = ⟨opk.toNat, c.eng.tdSet set.toNat, c.regs.getX a.toNat, c.regs.getX b.toNat, c.sys.kperm, c.eng.tpctl,
        (List.range 4).map (tget 0 c.eng.tpv), w.core, w.ctx, c.tridN⟩ → slot.holds m = false → ∃ u,
      exec (.trig a b set opk) s = .next u ∧ passedOn (s.ctx w) (u.ctx w) ∧ (u.commOf c.asid).trigs = [(0, slot)]) ∧
    ∀ (a b : R5) (set : BitVec 4) (opk : BitVec 3), opk.toNat ≤ 4 → m.freeTrig = none →
      exec (.trig a b set opk) s = .next (s.takeTrap w (trapAt 17 0 0 6 0) (s.ctx w).pipe.pc 1)

/-! ## Tiles, tasks, phases, steps and digests (R207, R318 to R326, R345) -/

/-- R318 to R322, R326, R345, R362: NTR asks for the next tile in the next tile register; TASK queues its record at the cluster's
sequencer; DONE ends the task with its status and completion address; an open SYNC and a PHASE advance; PROF writes its record and EVPOST
posts one. What each rule turns away traps. -/
def Obligations.TaskSlots : Prop :=
  ∀ (s : State) (w : At), enFree s w →
    let t := s.landed w
    let c := t.ctx w
    let x := fun (r : R5) => c.regs.getX r.toNat
    let trap := fun (cause : Nat) (addr : W64) => s.takeTrap w (trapAt cause 0 0 6 addr) (s.ctx w).pipe.pc 1
    (c.pipe.ntr.length < 4 → exec .ntr s = .next ((t.updPipe w fun p => { p with
      ntr := p.ntr ++ [⟨p.ntrPtr, p.count + 16, t.cycle, none, none⟩], ntrPtr := (p.ntrPtr + 1) % 4 }).issued w 1 [])) ∧
    (∀ a : R5, (x a).toNat % 256 = 0 → t.acqBusy w = false → (s.clu (clusterOf w.core)).seq.length < 64 → ∃ u e, exec (.task a) s = .next u ∧
      passedOn (s.ctx w) (u.ctx w) ∧ (u.clu (clusterOf w.core)).seq = (s.clu (clusterOf w.core)).seq ++ [e] ∧
      e.va = x a ∧ e.asid = c.asid ∧ e.core = w.core ∧ e.trid = c.tridN ∧
      e.kperm = c.sys.kperm) ∧
    (∀ a : R5, (x a).toNat % 256 ≠ 0 → t.acqBusy w = false → (s.clu (clusterOf w.core)).seq.length < 64 → exec (.task a) s = .next (trap 8 (x a))) ∧
    (∀ a b : R5, (x b).toNat % 8 = 0 → t.mayEnd w = true →
      exec (.taskDone a b) s = .next ((s.moved w [] (c.pipe.count + 1) (c.pipe.loops, c.pipe.pc)).updSched w fun k =>
        { k with ending := some (BitVec.ofNat 64 (fld (x a) 31 0), x b) })) ∧
    (∀ a b : R5, (x b).toNat % 8 ≠ 0 → t.mayEnd w = true → exec (.taskDone a b) s = .next (trap 8 (x b))) ∧
    (∀ lv : BitVec 3, lv.toNat ≤ 4 →
      (c.domCount lv.toNat = 0 → exec (.sync lv) s = .next (trap 14 0)) ∧
      (c.domCount lv.toNat ≠ 0 → c.sched.syncAt = some (lv.toNat + 8) →
        exec (.sync lv) s = .next ((t.updSched w fun k => { k with syncAt := none }).issued w 1 [])) ∧
      (c.domCount lv.toNat ≠ 0 → c.sched.syncAt = none → t.hasLees w = false → t.hasHeld c.tridN = false →
        t.globalOpen w false = false → t.cacheBusy c.tridN = false → exec (.sync lv) s = .next (s.stallAt w .waiting fun s => s.updSched w fun k =>
          { k with syncN := tset k.syncN lv.toNat ((tget 0 k.syncN lv.toNat + 1) % 4096), syncAt := some lv.toNat }))) ∧
    (∀ p : BitVec 4, (t.isDet w = false → exec (.phase p) s = .next (t.issued w 1 [])) ∧
      (t.isDet w = true → t.phaseBusy w = false → phaseClash c.phases p.toNat = false →
        exec (.phase p) s = .next ((t.updCtx w fun c => { c with phase := p.toNat }).issued w 1 [])) ∧
      (t.isDet w = true → t.phaseBusy w = false → phaseClash c.phases p.toNat = true →
        exec (.phase p) s = .next (trap 10 0))) ∧
    (∀ (a : R5) (n : BitVec 12), exec (.prof a n) s = .next ((t.profile (((t.taskOf w).map (·.vi)).getD 0)
      [mkW [(n.toNat, 52), (w.core, 43), (w.ctx, 41)], x a, BitVec.ofNat 64 t.cycle, 0]).issued w 1 [])) ∧
    ∀ (k : BitVec 2) (a : R5) (tag : BitVec 12),
      let v : At := ⟨w.core, k.toNat⟩
      ((t.ctx v).trid ≠ none → (t.ctx v).asid = c.asid → (t.ctx v).evRoom = true →
        exec (.evpost k a tag) s = .next ((t.post v ⟨recW0 tag.toNat 5 0 0 0 (fld (x a) 31 0), 0⟩).issued w 1 [])) ∧
      ((k.toNat = w.ctx ∨ (t.ctx v).evRoom = true) → ((t.ctx v).trid = none ∨ (t.ctx v).asid ≠ c.asid) →
        exec (.evpost k a tag) s = .next (trap 14 0)) ∧
      (k.toNat = w.ctx → (t.ctx v).evRoom = false → exec (.evpost k a tag) s = .next (trap 14 0)) ∧
      (k.toNat ≠ w.ctx → (t.ctx v).evRoom = false → exec (.evpost k a tag) s = .next (s.stallAt w .waiting id))

/-- R207, R323, R325: STEPB and STEPE of a block of the context's ASID hand a request to the step sequencer, and STEPB opens the step;
of a block with no entry, of another ASID, or open where it should be closed, they trap. DIGCMP whose digests agree clears DG and
goes on, and traps DIGEST where they do not. -/
def Obligations.StepAndDigestSlots : Prop :=
  ∀ (s : State) (w : At), enFree s w →
    let t := s.landed w
    let c := t.ctx w
    let d := dieOf w.core
    let trap := fun (cause : Nat) (addr : W64) (nw : Nat) => s.takeTrap w (trapAt cause 0 0 6 addr) (s.ctx w).pipe.pc nw
    (∀ (b : BitVec 8) (tag : BitVec 16),
      let e := s.block d b.toNat
      (bkV e = false → exec (.stepb b tag) s = .next (trap 14 0 2) ∧ exec (.stepbRp b tag) s = .next (trap 14 0 2) ∧
        exec (.stepe b tag) s = .next (trap 14 0 2)) ∧
      (bkV e = true → bkAsid e ≠ c.asid → exec (.stepb b tag) s = .next (trap 3 0 2) ∧
        exec (.stepbRp b tag) s = .next (trap 3 0 2) ∧ exec (.stepe b tag) s = .next (trap 3 0 2)) ∧
      (bkV e = true → bkAsid e = c.asid → bkOpen e = true →
        exec (.stepb b tag) s = .next (trap 14 0 2) ∧ exec (.stepbRp b tag) s = .next (trap 14 0 2) ∧
        (idOf (s.stepOf d b.toNat).trid = idOf c.tridN → ∃ u, exec (.stepe b tag) s = .next u ∧
          (u.stepOf d b.toNat).reqs = (s.stepOf d b.toNat).reqs ++ [⟨.stepe, w.core, w.ctx, c.tridN, tag.toNat⟩] ∧
          u.block d b.toNat = e)) ∧
      (bkV e = true → bkAsid e = c.asid → bkOpen e = false → exec (.stepe b tag) s = .next (trap 14 0 2) ∧
        (∃ u, exec (.stepb b tag) s = .next u ∧
          (u.stepOf d b.toNat).reqs = (s.stepOf d b.toNat).reqs ++ [⟨.stepb, w.core, w.ctx, c.tridN, tag.toNat⟩] ∧
          (u.stepOf d b.toNat).trid = c.tridN ∧ bkOpen (u.block d b.toNat) = true) ∧
        ∃ u, exec (.stepbRp b tag) s = .next u ∧
          (u.stepOf d b.toNat).reqs = (s.stepOf d b.toNat).reqs ++ [⟨.stepbRp, w.core, w.ctx, c.tridN, tag.toNat⟩] ∧
          (u.stepOf d b.toNat).trid = c.tridN ∧ bkOpen (u.block d b.toNat) = true)) ∧
    ∀ (a b : R5) (l : List Nat),
      let step := (c.regs.getX a.toNat).toNat
      let ch := fld (c.regs.getX b.toNat) 7 0
      let m := (s.commOf c.asid).chan ch
      chV m = true → chKind m = 3 → t.digPeers w ch = .ok l → (∀ e ∈ c.copyq, e.kind ≠ .digest) →
      (c.sched.digWait = some (digMark ch step + 1) → ∃ u, exec (.digcmp a b) s = .next u ∧ (u.ctx w).eng.dg = 0 ∧
        (u.ctx w).sched.digWait = none ∧ (u.ctx w).pipe.count = c.pipe.count + 1) ∧
      (c.sched.digWait = some (digMark ch step + 2) →
        exec (.digcmp a b) s = .next (trap 23 (c.regs.getX a.toNat) 1))


/-! ## Events of the cores, of translation and of the page service (R60 to R69, R81, R85, R103, R364, R365, R377, R417) -/

/-- R60, R63, R69, R81, R85, R364, R365, R377, R411, R417: no core issues in a gated cycle; the one Ready context of a core with no holder is
given issue; the counts of R364 and R365 rise by one a cycle up to their bound; a boundary takes the oldest deferred trap of a context that
runs; a walk that faults installs nothing; a shoot-down removes the entries that it matches and counts its completion once no access
translated under them is left; a held release waits for its entries; CASKMISS and a retired ASID's cask lines are cleared,
the first from step 6 of the start-up on (R411).
That an event which cannot occur changes nothing is the model's choice (log 10). -/
def Obligations.CoreEvents : Prop :=
  ∀ (s : State) (core k : Nat),
    let w : At := ⟨core, k⟩
    let c := s.ctx w
    (s.awake = false ∨ s.gatedCycle = true → exec (.issueSelect core) s = .next s) ∧
    (s.awake = true → s.gatedCycle = false → (s.core core).holder = none → k < 4 →
      (∀ j, j < 4 → ((s.ctx ⟨core, j⟩).trid ≠ none ↔ j = k)) → s.runNow w = .ready →
      ∃ t, exec (.issueSelect core) s = .next t ∧ (t.core core).holder = some k ∧ (t.ctx w).regs = c.regs ∧ t.mem = s.mem) ∧
    ((∀ h, (s.core core).holder = some h → (s.ctx ⟨core, h⟩).sched.run ≠ .stalled) → exec (.stallSwitchCount core) s = .next s) ∧
    ((s.core core).holder = some k → c.sched.run = .stalled →
      exec (.stallSwitchCount core) s = .next (s.updSched w fun x => { x with stalled := min 8 (x.stalled + 1) })) ∧
    (c.sched.run ≠ .ready → exec (.priorityAging core k) s = .next s) ∧
    (c.sched.run = .ready →
      exec (.priorityAging core k) s = .next (s.updSched w fun x => { x with
        readyFor := min 65536 (x.readyFor + 1), aged := x.aged || decide (65536 ≤ x.readyFor + 1) })) ∧
    (c.sched.stop = none → c.sched.run = .idle ∨ c.sched.deferred = [] → exec (.deferredTrapSuspend core k) s = .next s) ∧
    (∀ t l, c.sched.stop = none → c.sched.run ≠ .idle → c.sched.deferred = t :: l →
      let s1 := s.updSched w fun x => { x with deferred := l }
      let b := t.bundle.getD c.pipe.pc
      exec (.deferredTrapSuspend core k) s = .next (s1.takeTrap w t b (s1.lenAt w b))) ∧
    (∀ st, c.sched.stop = some st → s.stopReady w st = false → s.settled w = false ∨ s.mayDecide (dieOf core) 1 = true →
      exec (.deferredTrapSuspend core k) s = .next s) ∧
    (∀ asid va f l, s.walk (dieOf core) asid va.toNat = (.error f, l) → (∀ e ∈ (s.die (dieOf core)).tlb, e.hits asid va.toNat = false) →
      exec (.pageWalkComplete core asid va) s = .next s) ∧
    (∀ asid va e, (∀ x ∈ (s.core core).tlb, x.hits asid va.toNat = false) →
      (s.die (dieOf core)).tlb.find? (fun x => x.hits asid va.toNat) = some e → ∃ t,
      exec (.pageWalkComplete core asid va) s = .next t ∧ (t.core core).tlb = (e :: (s.core core).tlb).take 128) ∧
    (∀ trid, (∀ r ∈ s.releases, idOf r.trid = idOf trid → s.goReady r = false) → exec (.releaseGo trid) s = .next s) ∧
    (∀ r, s.releases = [r] → s.goReady r = true → r.atop = none → s.atCluster r.x r.ord.wide = false →
      s.placeWait (clusterOf r.core) r.x r.ord.wide true r.data.length = none →
      isHbm (r.x.pa + r.data.length) = true → ∃ t,
      exec (.releaseGo r.trid) s = .next t ∧ t.releases = [] ∧ t.homeRead r.x.pa r.data.length = r.data) ∧
    (∀ die w0 w1 w2, ∃ t, exec (.shootdown die w0 w1 w2) s = .next t ∧
      (t.die die).tlb = (s.die die).tlb.filter (fun e => !e.shot w0 w1) ∧
      (t.die die).dtc = (s.die die).dtc.filter (fun e => !e.shot w0 w1) ∧
      (t.die die).stc = (s.die die).stc.filter (fun e => !e.shot w0 w1) ∧
      (bit w0 63 = false → (t.die die).asidTab = (s.die die).asidTab) ∧
      (t.die die).shoots = (s.die die).shoots ++ [⟨w0, w1, w2⟩] ∧
      (dieOf core = die → (t.core core).tlb = (s.core core).tlb.filter (fun e => !e.shot w0 w1)) ∧
      (dieOf core ≠ die → (t.core core).tlb = (s.core core).tlb) ∧ t.mem = s.mem) ∧
    (∀ die, (s.die die).shoots = [] → exec (.shootdownComplete die) s = .next s) ∧
    (∀ die x l, (s.die die).shoots = x :: l → s.shootBusy die x = true → exec (.shootdownComplete die) s = .next s) ∧
    (∀ die x l, (s.die die).shoots = x :: l → s.shootBusy die x = false → ∃ t,
      exec (.shootdownComplete die) s = .next t ∧ (t.die die).shoots = l ∧
      (isHbm (fld x.w2 51 3 * 8) = true → t.homeW (fld x.w2 51 3 * 8) = s.homeW (fld x.w2 51 3 * 8) + 1)) ∧
    (s.board.boot < 6 → ∀ clu, exec (.caskmissClear clu) s = .next s) ∧
    (6 ≤ s.board.boot → ∀ clu, ∃ t, exec (.caskmissClear clu) s = .next t ∧ (t.clu clu).missCnt = 0 ∧ (t.clu clu).missOff = 0 ∧
      (t.clu clu).cask = (s.clu clu).cask ∧ t.mem = s.mem) ∧
    ∀ asid, ∃ t, exec (.asidRetire asid) s = .next t ∧ (∀ clu, (t.clu clu).cask = (s.clu clu).cask.filter fun p => p.2.asid != asid) ∧
      t.mem = s.mem

/-- R61, R66, R68, R98, R103, R105, R106, R107, R122: a mapped page frees the loads that wait for it, and a declined one marks them;
a page that a target reports mapped sends its entry again; a copy queue's entry that its first examination ends has the status of R104;
an entry that has ended leaves its queue, which halts unless it ended well, and a fence leaves all the queues it names at once; an install
of R122 has its code in PLWSTAT and clears the command.
That an event which cannot occur changes nothing is the model's choice (log 10); the page of a mapping is log 17. -/
def Obligations.PageAndCopyEvents : Prop :=
  ∀ (s : State) (core k : Nat),
    let w : At := ⟨core, k⟩
    let c := s.ctx w
    (∀ asid va, (∀ x, (s.core x).lees = []) → s.releases = [] → s.cacheOps = [] → (∀ d, (s.die d).tx.rxHeld = []) → ∃ t u,
      exec (.pageMapped asid (.mapped va)) s = .next t ∧ exec (.pageRequestDeclined asid va) s = .next u ∧ t.mem = s.mem ∧ u.mem = s.mem ∧
      ∀ h, c.sched.hold = some h →
        ((t.ctx w).sched.hold = if h.asid = asid ∧ s.samePage 0 asid va h.va.toNat = true then none else some h) ∧
        (u.ctx w).sched.hold = some (if h.asid = asid ∧ h.va.toNat / 4096 = va.toNat / 4096 then { h with declined := true } else h)) ∧
    (∀ stamp trid, (s.core core).lees = [] → s.releases = [] → s.cacheOps = [] → ∃ t,
      exec (.remotePageMappedReport core stamp trid) s = .next t ∧ (t.core core).lees = [] ∧ t.dies = s.dies ∧ t.mem = s.mem) ∧
    (∀ e r, (s.core core).lees = [e] → s.releases = [] → s.cacheOps = [] → e.remote = true → e.failed = false → e.op = .store →
      s.leesSent e = false → s.portsOff = false → runsOf e.size e.vec e.data = [r] → ∃ t,
      exec (.remotePageMappedReport core e.stamp e.trid) s = .next t ∧ (t.core core).lees = [{ e with ready := false }] ∧
      ∃ f a, f ∈ (t.die (dieOf core)).tx.flows ∧ a ∈ f.2.accs ∧ a.op = 4 ∧ a.lees = some e.stamp ∧
        a.va = e.va + BitVec.ofNat 64 r.1 ∧ a.data.map (·.2) = r.2) ∧
    (s.copyNext core = none → exec (.copyTransfer core) s = .next s) ∧
    (∀ e v, s.copyNext core = some (k, e) → e.started = false → s.copyVerdict w e = some v → ∃ t x,
      exec (.copyTransfer core) s = .next t ∧ (t.core core).rr = 4 * k + e.q ∧ (t.ctx w).headOf e.q = some x ∧ x.started = true ∧
      x.ended = true ∧ x.status = v.1 ∧ x.addr = v.2 ∧ t.mem = s.mem) ∧
    (∀ e n, s.copyNext core = some (k, e) → e.started = true → e.kind = .digest → e.paused = none → e.next = 0 →
      s.copyVerdict w e = none → digBuf e.words = true → bufSpace (wd e.words 0) < 3 → n = digWords e.words → n ≤ 32 → cpSig e.words = false → ∃ t,
      exec (.copyTransfer core) s = .next t ∧
      (t.ctx w).eng.dg = (List.range n).foldl (fun g i => mix64 g (w64
        (s.bufRead (clusterOf core) c.asid (wd e.words 0 + BitVec.ofNat 64 (8 * i)) 8).1)) c.eng.dg ∧ t.mem = s.mem) ∧
    (∀ q, (∀ e, c.headOf q = some e → e.ended = false ∧ e.status = 0) → exec (.copyEntryComplete core k q) s = .next s) ∧
    (∀ q e, c.headOf q = some e → e.kind = .copy ∨ e.kind = .digest → e.ended = true ∨ e.status ≠ 0 → e.evt = false → e.ring = none →
      ∃ t, exec (.copyEntryComplete core k q) s = .next t ∧ (t.ctx w).copyq.length + 1 = c.copyq.length ∧
      (t.ctx w).evq = c.evq ∧ (e.status = 0 ∨ e.status = 4 → (t.ctx w).eng.haltq = c.eng.haltq) ∧
      (e.status ≠ 0 → e.status ≠ 4 → (t.ctx w).eng.haltq = c.eng.haltq ||| 2 ^ q ∧
        ∀ x ∈ (t.ctx w).copyq, x.q = q → x.status = 4)) ∧
    (∀ q e m id, c.headOf q = some e → e.kind = .fence m id → e.evt = false → (maskQueues m).head? = some q →
      (∀ j ∈ maskQueues m, ∃ x, c.headOf j = some x ∧ x.kind = .fence m id) →
      exec (.qfenceComplete core k q) s = .next (s.updCtx w fun c => { c with
        copyq := (maskQueues m).foldl (fun l j => dropFirst j l) c.copyq })) ∧
    (∀ q e m id j x, c.headOf q = some e → e.kind = .fence m id → j ∈ maskQueues m → c.headOf j = some x → x.kind ≠ .fence m id →
      exec (.qfenceComplete core k q) s = .next s) ∧
    (c.eng.plwPend = none → exec (.placementInstall core k) s = .next s) ∧
    ∀ cmd asid, c.eng.plwPend = some (cmd, asid) → ∃ t,
      let r := s.plCheck w asid (fld cmd 23 0) ((List.range 8).map fun i => tget 0 c.eng.plw i)
      exec (.placementInstall core k) s = .next t ∧ (t.ctx w).eng.plwPend = none ∧
      (t.ctx w).eng.plwstat = BitVec.ofNat 64 r ∧ (r ≠ 0 → t.comm = s.comm) ∧
      (r = 0 → bit cmd 24 = false → ∃ p, tget? (t.commOf asid).table (fld cmd 23 0) = some p ∧
        p.words = (List.range 8).map fun i => tget 0 c.eng.plw i)

/-! ## Packets and flows (R115 to R151, R160 to R163, R464 to R467) -/

/-- R115, R119, R128, R138, R141 to R143, R149, R151, R340, R464 to R467: a packet that the device does not support, a trimmed one, a copy
of one delivered, one ahead of its ordered flow and one that no communication context takes are counted, answered or dropped and do
nothing else; a packet that passes every step of R467 is
placed and accepted; a global access is performed or answered with its fault; the answer to a load lands in its registers; a header goes to the
receive that takes it or is kept; credits, notices and resets of a group change what they name.
The forms of headers, credits, notices and digests, and the answer to a read of an unknown job, are log 26, the drop of a packet ahead of its flow log 57, the answers of held accesses log 33, judgements where R467 is silent log 31; that an event which cannot occur changes nothing is the model's choice (log 10). -/
def Sys2Proof.Claims.ArrivingPackets : Prop :=
  ∀ (s : State) (die : Nat) (p : Packet),
    let tx := (s.die die).tx
    (s.portsOff = true → ∀ i ∈ ([.rxPlace die p, .rxReduce die p, .rxFlushp die p, .rxChan die p] : List Instr), exec i s = .next s) ∧
    (s.portsOff = false →
    (∀ i ∈ ([.rxGload die p, .rxGstore die p, .rxGatom die p, .rxPlace die p, .rxReduce die p, .rxFlushp die p, .rxChan die p] : List Instr),
      (p.unsupp = true → exec i s = .next (s.updTx die fun t => { t with unsupp := satAdd 32 t.unsupp 1 })) ∧
      (p.unsupp = false → s.isHeld die p = true → exec i s = .next s) ∧
      (p.unsupp = false → s.isHeld die p = false → p.trim = true → exec i s = .next (s.answerTo die p.src p.flow p.psn 5)) ∧
      (p.unsupp = false → p.trim = false → s.isHeld die p = false → tx.seen.contains (pktKey p, p.psn) = true →
        exec i s = .next (s.answerTo die p.src p.flow p.psn 0))) ∧
    (∀ i ∈ ([.rxPlace die p, .rxReduce die p, .rxFlushp die p, .rxChan die p] : List Instr),
      s.arriving die p = none → s.ctxOfJob p.job = none → exec i s = .next (s.answerTo die p.src p.flow p.psn 2)) ∧
    (∀ i ∈ ([.rxGload die p, .rxGstore die p, .rxGatom die p] : List Instr),
      (p.unsupp = false → p.trim = false → s.isHeld die p = false → tx.seen.contains (pktKey p, p.psn) = false →
        pkMalformed p = none → pkOrdered p = true → tget 0 tx.rodNext (pktKey p) < p.psn → exec i s = .next s) ∧
      (s.arriving die p = none → s.ctxOfPkt die p = none →
        exec i s = .next ((s.rodStep die p).answerTo die p.src p.flow p.psn 2))) ∧
    (p.unsupp = true → exec (.rxGresp die p) s = .next (s.updTx die fun t => { t with unsupp := satAdd 32 t.unsupp 1 })) ∧
    (∀ asid pl, s.arriving die p = none → p.sem = [] → s.judge p false = .ok asid pl → fld p.w3 63 48 = 0 →
      exec (.rxPlace die p) s = .next ((s.placeIt asid pl p).accept die p)) ∧
    (∀ asid pl, s.arriving die p = none → s.judge p true = .ok asid pl → fld p.w3 63 48 = 0 →
      tget [] s.tags p.src = [] → ∃ t, exec (.rxReduce die p) s = .next t ∧
      (t.die die).tx.answer = some (p.src, p.flow, p.psn, 0) ∧ (pktKey p, p.psn) ∈ (t.die die).tx.seen) ∧
    (s.arriving die p = none → p.sem = [] → s.judge p false = .retry → exec (.rxPlace die p) s = .next (s.answerTo die p.src p.flow p.psn 1)) ∧
    (∀ asid, s.arriving die p = none → s.ctxOfJob p.job = some asid → exec (.rxFlushp die p) s =
      .next ((s.markSeen die p).answerTo die p.src p.flow p.psn 3)) ∧
    (∀ asid, p.sem ≠ [] → s.arriving die p = none → s.ctxOfJob p.job = some asid →
      (∃ t, exec (.rxPlace die p) s = .next t ∧ (t.commOf asid).parts = (s.commOf asid).parts ++
        [(p.src, (wd p.sem 0).toNat, (wd p.sem 1).toNat, pkBytes p)]) ∧
      (pkLen p = 8 → ∃ t, exec (.rxChan die p) s = .next t ∧ (t.commOf asid).digests = (s.commOf asid).digests ++
        [((wd p.sem 1).toNat % 256, p.src, (wd p.sem 0).toNat, w64 (pkBytes p))])) ∧
    (∀ asid, s.arriving die p = none → s.ctxOfPkt die p = some asid → tx.rxHeld = [] →
      let s1 := s.rodStep die p
      let va := s1.windowVa die asid (fld p.w1 46 0)
      let parts := s1.targetParts die asid va (pkSize p) p
      let r := s1.performGlobal die asid va (pkSize p) p parts
      ∀ i ∈ ([.rxGload die p, .rxGstore die p, .rxGatom die p] : List Instr),
        s1.targetBias die asid va (pkSize p) p parts = none →
        (s1.targetFail va (pkSize p) p parts = none →
          exec i s = .next (r.2.2.respond die asid p r.1 (if r.1 = 0 then r.2.1 else []))) ∧
        ∀ f a, s1.targetFail va (pkSize p) p parts = some (f, a) →
          let live := pkOp p = 3 ∨ (pkOp p = 5 ∧ atomLive p = true)
          (live → f ≠ .page 0 → exec i s = .next (s1.respond die asid p (mkW [(1, 4), (f.fkind, 0)]) [])) ∧
          (¬ live → exec i s = .next ((if f = .page 5 then s1 else s1.pageRequest die asid a 1).respond die asid p
            (mkW [(1, 4), (f.fkind, 0)]) []))) ∧
    (∀ a l e w, p.resp = true → p.sem = [] → s.arriving die p = none → (tx.flow p.flow).accs = a :: l → a.load = true → a.op = 3 → a.lees = none →
      s.whereIs a.trid = some w → bit p.w2 5 = false → bit p.w2 4 = false →
      (s.ctx w).pipe.sb = [e] → e.ready = false → e.acc = a.id → e.file = .x → e.sx = false → ∃ t,
      exec (.rxGresp die p) s = .next t ∧ (t.ctx w).pipe.sb =
        [{ e with value := (BitVec.ofNat 64 (ofBytes (pkBytes p))).setWidth 2048, ready := true }] ∧
      (t.die die).tx.answer = some (p.src, p.flow, p.psn, 0)) ∧
    (∀ h : MsgHdr, h.pkt = p → s.arrivingOn die p true = none →
      (s.ctxOfJob p.job = none → exec (.messageHeaderMatch die h) s = .next ((s.rodStep die p).answerTo die p.src p.flow p.psn 2)) ∧
      ∀ asid, s.ctxOfJob p.job = some asid → (s.commOf asid).posted.find? (fun x => x.takes h) = none →
        (s.commOf asid).unexp.length < 65536 → ∃ t, exec (.messageHeaderMatch die h) s = .next t ∧
        (t.commOf asid).unexp = (s.commOf asid).unexp ++ [h] ∧ (t.die die).tx.answer = some (p.src, p.flow, p.psn, 0)) ∧
    (∀ asid ch peer, ∃ t, exec (.channelCredit asid ch peer) s = .next t ∧
      (t.commOf asid).outstanding ch peer = (s.commOf asid).outstanding ch peer - 1) ∧
    (∀ asid g, ∃ t u, exec (.collBrokenNotice asid g) s = .next t ∧ ((t.commOf asid).coll g).broken = true ∧
      exec (.collGroupReset asid g) s = .next u ∧ (u.commOf asid).coll g = ⟨0, false, [], [], [], []⟩) ∧
    (∀ job src off len rkey, s.ctxOfJob job = none →
      exec (.rmaReadRequest die job src off len rkey) s = .next (s.answerTo die src 0 rkey 2)) ∧
    (∀ job src off len rkey asid, s.ctxOfJob job = some asid → rkey ≠ 0 → (∀ o ∈ tx.ops, o.opid ≠ rkey) →
      exec (.rmaReadRequest die job src off len rkey) s = .next s) ∧
    (∀ job src off len asid l, s.ctxOfJob job = some asid → s.windowPages die asid (s.windowVa die asid off) len = .ok l →
      (s.unitBias .transport die asid false [(s.windowVa die asid off, len)]).isNone = true → (s.readPages asid l).1.length ≤ 4096 → ∃ t k,
      exec (.rmaReadRequest die job src off len 0) s = .next t ∧
      ((t.die die).tx.flow (rudFlow asid src)).pkts = ((s.die die).tx.flow (rudFlow asid src)).pkts ++ [k] ∧
      k.payload = (s.readPages asid l).1 ∧ k.sem = [BitVec.ofNat 64 off, 0]) ∧
    (∀ o bs, tx.ops = [o] → o.kind = 1 → o.ready = false →
      exec (.rmaReadResponse die o.opid bs none) s = .next (s.updTx die fun t => { t with ops :=
        [{ o with data := some (bs.take (tdNch o.words * tdChb o.words)) }] })) ∧
    (∀ o f bs, tx.ops = [o] → o.kind = 1 → o.ready = false → ∃ t x, exec (.rmaReadResponse die o.opid bs (some f)) s = .next t ∧
      (t.die die).tx.ops = [x] ∧ x.ready = true ∧ x.status = 1 ∧ x.fkind = f) ∧
    (∀ n, s.opDone die n = none → exec (.transportOpComplete die n) s = .next s) ∧
    ∀ o, tx.ops = [o] → o.ready = true → o.noev = true → o.ctr = none → o.kind ≤ 5 → ∃ t,
      exec (.transportOpComplete die o.opid) s = .next t ∧ (t.die die).tx.ops = [] ∧ t.cores = s.cores)

/-- R135, R160, R162, R466: an acknowledgement of a packet that is not out changes nothing, and one of the only packet out, unmarked,
empties its flow; "retry" starts the packet's backoff, one RTO interval, whose end sends it again; a timeout, an interval after the
last start, raises event 3 with its count; every path marked down is probed, an answer raises event 2, and a port that loses its link is noted and raises event 4.
How losses are counted is log 29, and in which cycles probes go out log 2; that an event which cannot occur changes nothing is the model's choice (log 10). -/
def Sys2Proof.Claims.FlowEvents : Prop :=
  ∀ (s : State) (die fid psn : Nat), s.portsOff = false →
    let d := s.die die
    let f := d.tx.flow fid
    (∀ code, (∀ k ∈ f.pkts, k.psn ≠ psn ∨ k.wire = false ∨ k.acked = true) → exec (.packetNack die fid psn code) s = .next s) ∧
    (∀ bytes mark rtt, (∀ k ∈ f.pkts, psn ≤ k.psn ∧ (k.psn ≠ psn ∨ k.wire = false ∨ k.acked = true)) →
      exec (.packetAck die fid [psn] [bytes] [mark] rtt) s = .next (s.updTx die fun t => t.updFlow fid Flow.trim)) ∧
    (∀ k bytes rtt, tget? d.tx.flows fid = some f → f.pkts = [k] → k.psn = psn → k.wire = true → k.acked = false → k.left ≤ 1 →
      d.tx.ops = [] → ∃ t, exec (.packetAck die fid [psn] [bytes] [false] rtt) s = .next t ∧ ((t.die die).tx.flow fid).pkts = [] ∧
      (t.die die).tc = d.tc) ∧
    (∀ k, tget? d.tx.flows fid = some f → f.pkts = [k] → k.psn = psn → k.wire = true → k.acked = false → ∃ t,
      exec (.packetNack die fid psn .retry) s = .next t ∧
      ((t.die die).tx.flow fid).pkts = [{ k with backoff := true, sent := true, since := s.cycle }] ∧
      ((t.die die).tx.flow fid).rtoPsn ≠ some psn) ∧
    ((∀ k ∈ f.pkts, k.psn = psn → k.backoff = false ∨ s.cycle < k.since + (d.tx.peer f.peer).rto * 1024) →
      exec (.retryBackoffExpiry die fid psn) s = .next s) ∧
    (∀ k, f.pkts = [k] → k.psn = psn → k.backoff = true → k.acked = false → k.since + (d.tx.peer f.peer).rto * 1024 ≤ s.cycle →
      exec (.retryBackoffExpiry die fid psn) s = .next (s.updTx die fun t => t.updFlow fid fun f => f.requeue (·.psn == psn))) ∧
    ((∀ k ∈ f.pkts, k.sent = false ∨ k.acked = true) → exec (.rtoExpiry die fid) s = .next s) ∧
    (∀ k l, f.pkts = k :: l → k.sent = true → k.acked = false →
      k.backoff = true ∨ s.cycle < k.since + (d.tx.peer f.peer).rto * 1024 → exec (.rtoExpiry die fid) s = .next s) ∧
    (∀ k l, tget? d.tx.flows fid = some f → f.pkts = k :: l → k.sent = true → k.acked = false → k.backoff = false →
      k.since + (d.tx.peer f.peer).rto * 1024 ≤ s.cycle → f.rtoAt + (d.tx.peer f.peer).rto * 1024 ≤ s.cycle → d.tc.state = 1 →
      d.tc.queue.length < 1023 → f.peer < 8192 → k.slot < 64 → (d.tx.slot f.peer k.slot).port < 32 → ∃ t e, exec (.rtoExpiry die fid) s = .next t ∧
      let n := if f.rtoPsn = some k.psn then f.timeouts + 1 else 1
      ((t.die die).tx.flow fid).timeouts = n ∧ (t.die die).tc.queue[d.tc.queue.length]? = some e ∧
      fld e.w0 63 59 = 3 ∧ fld e.w1 29 0 = k.opid % 2 ^ 30 ∧ e.w3 = BitVec.ofNat 64 (min n (2 ^ 32 - 1))) ∧
    (s.cycle % 2 ^ 20 ≠ 0 → exec (.pathProbe die) s = .next s) ∧
    (∀ peer i, s.cycle % 2 ^ 20 = 0 → i < 64 → (∃ q, tget? d.tx.peers peer = some q) → ∃ t, exec (.pathProbe die) s = .next t ∧
      (t.die die).tx.slot peer i = if (d.tx.slot peer i).probing then { d.tx.slot peer i with probed := true }
        else d.tx.slot peer i) ∧
    (∀ peer i rtt, (d.tx.slot peer i).probed = false → exec (.probeAnswer die peer i rtt) s = .next s) ∧
    (∀ peer i rtt, (d.tx.slot peer i).probed = true → (d.tx.slot peer i).port ∉ d.tx.linkDown → d.tc.state = 1 →
      d.tc.queue.length < 1024 → peer < 8192 → i < 64 → (d.tx.slot peer i).port < 32 → ∃ t e, exec (.probeAnswer die peer i rtt) s = .next t ∧
      ((t.die die).tx.slot peer i).probed = false ∧ (t.die die).tc.queue = d.tc.queue ++ [e] ∧ fld e.w0 63 59 = 2 ∧
      e.w2 = BitVec.ofNat 64 (rtt % 2 ^ 32)) ∧
    (∀ port, port ∈ d.tx.linkDown ∨ 18 ≤ port → exec (.portLinkLoss die port) s = .next s) ∧
    (∀ port, port < 18 → port ∉ d.tx.linkDown → d.tc.state = 1 → d.tc.queue.length < 1024 →
      ∃ t e, exec (.portLinkLoss die port) s = .next t ∧ (t.die die).tx.linkDown = d.tx.linkDown ++ [port] ∧
      (d.tx.peers = [] → d.tx.flows = [] → ∀ peer, ((t.die die).tx.slot peer port).weight = 0) ∧
      (t.die die).tc.queue = d.tc.queue ++ [e] ∧ fld e.w0 63 59 = 4 ∧ fld e.w0 57 53 = port) ∧
    ∀ port, ∃ t, exec (.portLinkUp die port) s = .next t ∧ (t.die die).tx.linkDown = d.tx.linkDown.filter (· != port)

/-- What arrives at a transport, and what its flows hear of their packets. -/
def Obligations.TransportEvents : Prop := Claims.ArrivingPackets ∧ Claims.FlowEvents

/-! ## Host queues and the dispatcher (R349 to R357, R366 to R371, R375, R382, R395) -/

/-- R352 to R356, R371, R395: a doorbell of a queue that stands, below QMAX, of an enabled interface, moves WRIDX forward, and halts the
queue when it would move back; a packet that is none of Table 15-6 halts it; a LAUNCH starts with its tasks or halts it, a WAIT holds the
later packets until its condition holds, a SIGNAL adds as it starts; a LAUNCH whose tasks have ended completes; a registered QCB is bound
to its die; the host's write of TRTAIL is TRTAIL.
What the model reads into packets whose access fails is log 36; that an event which cannot occur changes nothing is the model's choice (log 10). -/
def Sys2Proof.Claims.QueueEvents : Prop :=
  ∀ (s : State) (q : Nat),
    (∀ vi n w, tget? s.queues (queueKey vi n) = none ∨ s.board.boot < 6 ∨ bit (s.vi vi 0) 63 = false ∨ fld (s.vi vi 0) 41 32 ≤ n →
      exec (.doorbellWrite vi n w) s = .next s) ∧
    (∀ vi n w x, tget? s.queues (queueKey vi n) = some x → 6 ≤ s.board.boot → bit (s.vi vi 0) 63 = true → n < fld (s.vi vi 0) 41 32 →
      let k := queueKey vi n
      (w.toNat < s.qWr k → exec (.doorbellWrite vi n w) s = .next (s.qHalt k 4)) ∧
      (s.qWr k ≤ w.toNat → w.toNat ≤ s.qDone k + s.qSize k → isHbm (x.qcb + 64) = true → ∃ t,
        exec (.doorbellWrite vi n w) s = .next t ∧ t.qWr k = w.toNat ∧ t.qRd k = s.qRd k ∧ t.qState k = s.qState k)) ∧
    (s.nextPkt q = none → ∀ i ∈ ([.launchPacket q, .waitPacket q, .signalPacket q, .markPacket q] : List Instr), exec i s = .next s) ∧
    (∀ ws, s.nextPkt q = some ws → pkGood ws = false → exec (.launchPacket q) s = .next (s.qHalt q 3) ∧
      exec (.waitPacket q) s = .next s ∧ exec (.signalPacket q) s = .next s ∧ exec (.markPacket q) s = .next s) ∧
    (∀ ws, s.nextPkt q = some ws → pkGood ws = true → pkType ws = 1 →
      (s.launchBad q ws = true → exec (.launchPacket q) s = .next (s.qHalt q 1)) ∧
      (s.launchBad q ws = false → (s.launchBias q (wd ws 1)).isNone = true →
        (s.launchRecs q (wd ws 1) = .error none → exec (.launchPacket q) s = .next (s.qHalt q 1)) ∧
        ∀ rs s1, s.launchRecs q (wd ws 1) = .ok (rs, s1) →
          (s.launchTasks q ws rs = none → exec (.launchPacket q) s = .next (s.qHalt q 1)) ∧
          ∀ l x, s.launchTasks q ws rs = some l → tget? s.queues q = some x → ∃ t y, exec (.launchPacket q) s = .next t ∧
            tget? t.queues q = some y ∧ y.pkts = x.pkts ++ [⟨s.qRd q, rs, ws, l.length, l, false, false, false, x.die⟩] ∧ t.tasks = s.tasks)) ∧
    (∀ ws x, s.nextPkt q = some ws → pkGood ws = true → pkType ws = 2 → tget? s.queues q = some x → ∃ t y,
      exec (.waitPacket q) s = .next t ∧ tget? t.queues q = some y ∧ y.pkts = x.pkts ++ [⟨s.qRd q, [], ws, 0, [], false, false, false, x.die⟩]) ∧
    (s.waitOf q = none → exec (.waitSatisfied q) s = .next s) ∧
    (∀ k, s.waitOf q = some k → (s.unitBias .dispatch k.die (s.qAsid q) true [(wd k.words 1, 8)]).isNone = true →
      (∀ u, s.waitFinds q k = .ok (false, u) → exec (.waitSatisfied q) s = .next s) ∧
      (∀ u x, s.waitFinds q k = .ok (true, u) → tget? s.queues q = some x → x.pkts = [k] → ∃ t y,
        exec (.waitSatisfied q) s = .next t ∧ tget? t.queues q = some y ∧ y.pkts = []) ∧
      (∀ f x, s.waitFinds q k = .error f → f ≠ .page 0 → tget? s.queues q = some x →
        exec (.waitSatisfied q) s = .next ((State.qHalt { s with queues := tset s.queues q { x with held := none } } q 7).updPkt q
          k.index fun k => { k with stuck := true }))) ∧
    (∀ ws u, s.nextPkt q = some ws → pkGood ws = true → pkType ws = 3 →
      (s.unitBias .dispatch (s.qDie q) (s.qAsid q) true [(wd ws 1, 8)]).isNone = true →
      s.unitAdd .dispatch (s.qDie q) (s.qAsid q) (wd ws 1) (wd ws 2) = .ok u →
      exec (.signalPacket q) s = .next ((u.startPkt q ws [] [] true).retirePkts q)) ∧
    (∀ ws, s.nextPkt q = some ws → pkGood ws = true → pkType ws = 4 → (s.die (s.qDie q)).trace.follow = false →
      (s.mayDecide (s.qDie q) 1 = false → exec (.markPacket q) s = .next (s.logFull (s.qDie q))) ∧
      (s.mayDecide (s.qDie q) 1 = true → wd ws 2 = 0 → exec (.markPacket q) s =
        .next (((s.decide (s.qDie q) 9 (s.qAsid q) 0 0 0 (wd ws 1) []).startPkt q ws [] [] true).retirePkts q))) ∧
    (s.launchOver q = none → exec (.launchComplete q) s = .next s) ∧
    (∀ k x, s.launchOver q = some k → wd k.words 4 = 0 → tget? s.queues q = some x → x.pkts = [k] → ∃ t y,
      exec (.launchComplete q) s = .next t ∧ tget? t.queues q = some y ∧ y.pkts = []) ∧
    (∀ vi n die qcb, s.board.boot < 6 ∨ 4 ≤ die ∨ fld (s.vi vi 0) 41 32 ≤ n → exec (.queueRegister vi n die qcb) s = .next s) ∧
    (∀ vi n die qcb,
      let w1 := s.homeW (qcb.toNat + 8)
      let v := s.vi vi 0
      6 ≤ s.board.boot → fld w1 47 42 = vi → fld v 62 53 ≤ fld w1 57 48 → fld w1 57 48 < fld v 62 53 + fld v 52 42 → n < fld v 41 32 →
      die < 4 → s.mayDecide die 1 = true → (s.die die).trace.follow = false → ∃ t x, exec (.queueRegister vi n die qcb) s = .next t ∧
      tget? t.queues (queueKey vi n) = some x ∧ x.qcb = qcb.toNat ∧ x.die = die ∧ x.vi = vi) ∧
    (s.board.boot < 6 → ∀ die v, exec (.traceTailWrite die v) s = .next s) ∧
    (6 ≤ s.board.boot → ∀ die v, ∃ t, exec (.traceTailWrite die v) s = .next t ∧ (t.die die).trace.tail = v.toNat ∧
      (t.die die).trace.head = (s.die die).trace.head)

/-- R349: what dispatch gives a context of the record of its task. -/
def Sys2Proof.Claims.Dispatched (s t : State) (w : At) (trid : Nat) (r : RecData) : Prop :=
  (t.ctx w).trid = some (s.freshKey trid) ∧ idOf (s.freshKey trid) = trid ∧ (t.ctx w).sched.run = .ready ∧
  (t.ctx w).pipe.pc = r.w 3 &&& ~~~3#64 ∧ (∀ i, i < 8 → (t.ctx w).regs.getX (i + 1) = r.w (24 + i)) ∧
  (t.ctx w).sys.codebase = r.w 1 &&& ~~~3#64 ∧ (t.ctx w).sys.codelimit = r.w 2 &&& ~~~3#64

/-- No command, gang member or completion add waits at the dispatch engine of a die. -/
def Sys2Proof.Claims.atRest (s : State) (die : Nat) : Prop := (s.die die).cmds = [] ∧ (s.die die).gang = [] ∧ (s.die die).adds = []

/-- A command word of an OP with its reserved field 0 (Table 15-10). -/
def Sys2Proof.Claims.isCmd (w0 : W64) (op : Nat) : Prop := fld w0 63 56 = op ∧ fld w0 44 24 = 0

/-- R349, R350, R357, R366 to R368, R375, R376, R380, R382, R403, Table 16-11: NEW dispatches its record into an Idle context, with its program
counter, its first registers and its task; RESUME restores a saved task; a pre-emption stops the context that it names, a soft one at its
boundary or after 14,000 cycles; REMAP stops the contexts of its core, waits until they are saved and then gives it its spare; WALK loads
the nest position; an ended task leaves its context Idle; a sequencer dispatches its head record. A command with another OP or a reserved
field that is not 0, and one that names a context or a task that is not so, is refused, and the work distributor is told.
The keys of tasks of one TRID are the model's choice (log 14), as are the form of a refusal and which commands wait (log 66); where WALK finds its words is log 35. -/
def Sys2Proof.Claims.DispatchEvents : Prop :=
  ∀ (s : State) (die : Nat) (w0 donep : W64) (sv : SaveTo), Claims.atRest s die →
    let w : At := ⟨fld w0 55 47, fld w0 46 45⟩
    let c := s.ctx w
    let trid := fld w0 23 0
    let isCmd := Claims.isCmd w0
    let log := s.mayDecide die 1 = true ∧ (s.die die).trace.follow = false ∧ die = dieOf w.core
    let busy := ∃ e ∈ c.copyq, e.started = true
    let no := fun (cmd : Cmd) (err : Nat) => s.refuse die cmd err
    (∀ rec' li, (∀ op, 1 ≤ op → op ≤ 6 → ¬ isCmd op) → exec (.dispatchNew die w0 rec' li sv donep) s =
      .next (no (cmdOf w0 rec' li sv donep 0) 0)) ∧
    (∀ rec' li, isCmd 1 → log → c.trid ≠ none → c.leaving = false → s.launchOf die trid = none →
      (∀ r s1, s.newRec die trid rec' none = some (r, s1) → r.gang = false) →
      exec (.dispatchNew die w0 rec' li sv donep) s = .next (no (cmdOf w0 rec' li sv donep 0) 1)) ∧
    (∀ rec' li r s1,
      let asid := fld (s.homeW rec'.toNat) 49 40
      isCmd 1 → log → s.isIdle w = true → s.launchOf die trid = none → s.newRec die trid rec' none = some (r, s1) → r.gang = false →
      sv.behalf = none → s.recRefused die asid r = false → r.rankBad ((trid + 2 ^ 24 - r.trid) % 2 ^ 24) = false →
      phase0Bad r = false → ∃ t,
      exec (.dispatchNew die w0 rec' li sv donep) s = .next t ∧ Claims.Dispatched s t w trid r ∧
      r.words = s.physWords rec'.toNat 32 ∧ (t.ctx w).asid = asid ∧
      ∃ k, tget? t.tasks (s.freshKey trid) = some k ∧ k.save = sv.addr ∧ k.keep = sv.keep ∧ k.saved = false) ∧
    (∀ rec' li q k r,
      let mask := fld (wd k.words 3) 7 0
      isCmd 1 → log → s.isIdle w = true → s.launchOf die trid = some (q, k) → k.recFor trid = some r →
      (mask = 0 ∨ mask.testBit (clusterOf w.core) = true) → sv.behalf = none → s.viFull (q / 512) = false → r.gang = false →
      s.recRefused die (fld (s.qcbW q 1) 57 48) r = false → r.rankBad ((trid + 2 ^ 24 - r.trid) % 2 ^ 24) = false →
      phase0Bad r = false → ∃ t, exec (.dispatchNew die w0 rec' li sv donep) s = .next t ∧ Claims.Dispatched s t w trid r ∧
      ∃ x, tget? t.tasks (s.freshKey trid) = some x ∧ x.save = sv.addr ∧ x.saved = false ∧ x.queue = some (q, k.index)) ∧
    (isCmd 2 → s.named trid = [] → exec (.dispatchResume die w0 sv donep) s = .next (no (cmdOf w0 0 0 sv donep 0) 1)) ∧
    (∀ key k, isCmd 2 → log → s.savedKey trid sv.addr = some key → tget? s.tasks key = some k → s.mayResume w key k = false →
      exec (.dispatchResume die w0 sv donep) s = .next (no (cmdOf w0 0 0 sv donep 0) 1)) ∧
    (∀ key k, isCmd 2 → log → s.savedKey trid sv.addr = some key → tget? s.tasks key = some k → s.mayResume w key k = true →
      k.gang = none → s.isIdle w = true → (k.queue.any fun q => s.viFull (q.1 / 512)) = false → ∃ t x,
      exec (.dispatchResume die w0 sv donep) s = .next t ∧ (t.ctx w).trid = some key ∧ tget? t.tasks key = some x ∧
      x.saved = false ∧ x.save = sv.addr ∧ x.core = w.core ∧ x.ctx = w.ctx) ∧
    (die = dieOf w.core → c.trid.map idOf ≠ some trid → donep = 0 →
      (isCmd 3 → exec (.dispatchSoftpre die w0 sv donep) s = .next (s.updDie die id)) ∧
      ∀ save keep, isCmd 4 → exec (.dispatchHardpre die w0 save donep keep) s = .next (s.updDie die id)) ∧
    (∀ key k, isCmd 3 → log → c.trid = some key → idOf key = trid → tget? s.tasks key = some k → k.lren = true → k.gang = none →
      c.sched.stop = none → c.sched.preempt = none → c.sched.run ≠ .waiting →
      exec (.dispatchSoftpre die w0 sv donep) s = .next ((s.updDie die id).updSched w fun k => { k with
        preempt := some ⟨false, s.cycle, false, sv.addr, sv.keep, [donep], false⟩ })) ∧
    (∀ save keep key k, isCmd 4 → log → c.trid = some key → idOf key = trid → tget? s.tasks key = some k → k.gang = none →
      c.sched.stop = none → c.sched.preempt = none → c.sched.deferred = [] → c.sched.ending = none → s.dueTrap w = none → busy → ∃ t,
      exec (.dispatchHardpre die w0 save donep keep) s = .next t ∧ (t.ctx w).sched.run = .held ∧
      (t.ctx w).sched.stop = some ⟨1, save, keep, [donep], false⟩ ∧ (t.ctx w).copyq = c.copyq) ∧
    (s.softReady w = false → exec (.softpreBoundary w.core w.ctx) s = .next s) ∧
    (∀ p, c.sched.preempt = some p → s.softReady w = true → s.mayDecide (dieOf w.core) 1 = true →
      p.drain = true ∨ s.dueTrap w = none →
      (c.pipe.ntr = [] → busy → ∃ t, exec (.softpreBoundary w.core w.ctx) s = .next t ∧ (t.ctx w).sched.run = .held ∧
        (t.ctx w).sched.stop = some ⟨2, p.save, p.keep, p.donep, false⟩ ∧ (t.ctx w).pipe.inflight = []) ∧
      (c.pipe.ntr ≠ [] → exec (.softpreBoundary w.core w.ctx) s =
        .next (s.updSched w fun k => { k with preempt := some { p with drain := true } }))) ∧
    (s.softLate w = false → exec (.softpreTimeout w.core w.ctx) s = .next s) ∧
    (∀ p, c.sched.preempt = some p → s.softLate w = true → s.mayDecide (dieOf w.core) 1 = true → c.sched.deferred = [] →
      c.sched.ending = none → s.dueTrap w = none → busy → ∃ t,
      exec (.softpreTimeout w.core w.ctx) s = .next t ∧ (t.ctx w).sched.run = .held ∧
      (t.ctx w).sched.stop = some ⟨1, p.save, p.keep, p.donep, !p.hard⟩) ∧
    (∀ w5,
      let cmd := cmdOf w0 0 0 ⟨0, false, none⟩ donep w5
      let spare := fld w5 15 0
      isCmd 5 → fld w5 63 16 = 0 →
      (spare = 0 ∨ die ≠ dieOf w.core ∨ s.spareUsed spare = true → exec (.dispatchRemap die w0 donep w5) s = .next (no cmd 1)) ∧
      (die = dieOf w.core → spare ≠ 0 → s.spareUsed spare = false → 2 ≤ tget 0 s.spares (clusterOf w.core) → ∃ t,
        exec (.dispatchRemap die w0 donep w5) s = .next t ∧ (t.core w.core).offline = true ∧ t.tasks = s.tasks) ∧
      (log → spare ≠ 0 → s.spareUsed spare = false → tget 0 s.spares (clusterOf w.core) < 2 →
        (∀ k, k < 4 → (s.ctx ⟨w.core, k⟩).trid = none) → ∃ t, exec (.dispatchRemap die w0 donep w5) s = .next t ∧
        (t.core w.core).phys = spare ∧ (t.core w.core).tlb = [] ∧ (t.core w.core).l1 = [] ∧ (t.core w.core).l1i = [] ∧
        (t.core w.core).wb = (s.core w.core).wb ∧ (t.die die).cmds = [] ∧
        tget 0 t.spares (clusterOf w.core) = tget 0 s.spares (clusterOf w.core) + 1) ∧
      (∀ key k, log → spare ≠ 0 → s.spareUsed spare = false → tget 0 s.spares (clusterOf w.core) < 2 →
        (∀ j, j < 4 → j ≠ w.ctx → (s.ctx ⟨w.core, j⟩).trid = none) → c.trid = some key → tget? s.tasks key = some k → k.gang = none →
        c.sched.stop = none → c.sched.preempt = none → c.sched.deferred = [] → c.sched.ending = none → s.dueTrap w = none → busy → ∃ t,
        exec (.dispatchRemap die w0 donep w5) s = .next t ∧ (t.die die).cmds = [cmd] ∧
        (t.ctx w).sched.stop = some ⟨4, k.save, true, [], false⟩ ∧ (t.core w.core).phys = (s.core w.core).phys)) ∧
    (∀ save, isCmd 6 →
      (die ≠ dieOf w.core ∨ c.trid.map idOf ≠ some trid →
        exec (.dispatchWalk die w0 save donep) s = .next (no (cmdOf w0 0 0 ⟨save, false, none⟩ donep 0) 1)) ∧
      ∀ key, die = dieOf w.core → c.trid = some key → idOf key = trid → ∃ t, exec (.dispatchWalk die w0 save donep) s = .next t ∧
        (t.ctx w).slice.lo = fld (s.homeW (save.toNat + 0x420)) 63 32 ∧
        (t.ctx w).slice.hi = fld (s.homeW (save.toNat + 0x420)) 31 0 ∧
        (t.ctx w).slice.pos = fld (s.homeW (save.toNat + 0x428)) 63 32 ∧ (t.ctx w).regs = c.regs) ∧
    (s.endReady w = false → exec (.taskEnd w.core w.ctx) s = .next s) ∧
    (∀ st key k, c.sched.ending = some (st, 0) → s.mayEnd w = true → c.trid = some key → tget? s.tasks key = some k → ∃ t,
      exec (.taskEnd w.core w.ctx) s = .next t ∧ t.ctx w = Ctx.reset ∧ tget? t.tasks key = none) ∧
    (s.stoppedKey trid = none → exec (.taskEndedByFirmware trid) s = .next s) ∧
    (∀ key k, s.stoppedKey trid = some key → tget? s.tasks key = some k → k.saved = true → ∃ t,
      exec (.taskEndedByFirmware trid) s = .next t ∧ tget? t.tasks key = none ∧ ∀ r ∈ t.releases, r.trid ≠ key) ∧
    (∀ clu, s.seqReady clu = false → exec (.taskSequencerDispatch clu) s = .next s) ∧
    ∀ clu e l, (s.clu clu).seq = e :: l → s.seqReady clu = true → s.mayDecide (dieOfClu clu) 1 = true →
      (s.die (dieOfClu clu)).trace.follow = false →
      (∀ r v, e.data = some r → s.seqTarget clu e = some v → s.recRefused (dieOfClu clu) e.asid r = false → r.rankBad 0 = false →
        r.gang = false → r.sup = false → phase0Bad r = false → ∃ t,
        exec (.taskSequencerDispatch clu) s = .next t ∧ (t.clu clu).seq = l ∧ Claims.Dispatched s t v r.trid r) ∧
      (∀ r, e.data = some r → s.recRefused (dieOfClu clu) e.asid r = true ∨ r.rankBad 0 = true ∨ r.gang = true ∨ r.sup = true → ∃ t,
        exec (.taskSequencerDispatch clu) s = .next t ∧ (t.clu clu).seq = l ∧ t.tasks = s.tasks) ∧
      (e.data = none → (s.recBias (taskReader clu e.asid e.kperm) (dieOfClu clu) e.asid e.va).isNone = true →
        s.seqTake clu e = .error none → ∃ t, exec (.taskSequencerDispatch clu) s = .next t ∧ (t.clu clu).seq = l ∧ t.tasks = s.tasks)

/-- The events of host queues and of the dispatcher. -/
def Obligations.DispatcherEvents : Prop := Claims.QueueEvents ∧ Claims.DispatchEvents

/-! ## The step sequencer, the walker and waits (R200, R207 to R215, R318, R321, R325, R359 to R362) -/

/-- R200, R207, R208, R210, R213, R318, R321, R325, R360, R362: the work distributor's write of a block entry is refused while its step is
open, and keeps its STEPNO; a STEPB that is evaluated latches its skip map, and a STEPE that is closed leaves the step closed with the next
STEPNO; the walker answers the oldest NTR with the next tile of the context's slice, or NULL; a SYNC opens for its members; a DIGCMP is
judged once every digest has come.
That an event which cannot occur changes nothing is the model's choice (log 10); how NTR and DIGCMP wait is log 34. -/
def Obligations.SequencerEvents : Prop :=
  ∀ (s : State) (die b : Nat) (w : At),
    let e := s.block die b
    let x := s.stepOf die b
    let c := s.ctx w
    (∀ ws, 256 ≤ b ∨ bkOpen e = true ∨ blockRefused ws = true → exec (.blockEntryWrite die b ws) s = .next s) ∧
    (∀ ws, b < 256 → bkOpen e = false → blockRefused ws = false → ∃ t, exec (.blockEntryWrite die b ws) s = .next t ∧
      bkOpen (t.block die b) = false ∧ bkStepno (t.block die b) = bkStepno e ∧ bkTr (t.block die b) = bkTr ws ∧
      bkTc (t.block die b) = bkTc ws ∧ bkV (t.block die b) = bkV ws ∧ (∀ i, 0 < i → i < 9 → wd (t.block die b) i = wd ws i) ∧
      t.stepOf die b = x) ∧
    (x.reqs = [] → exec (.stepbEvaluation die b) s = .next s ∧ exec (.stepeClose die b) s = .next s) ∧
    (∀ q l, x.reqs = q :: l →
      (q.kind = .stepe ∨ (s.stepReady die b q = false ∧ (s.stepFree die b q = false ∨ s.stepRoom die b = true)) →
        exec (.stepbEvaluation die b) s = .next s) ∧
      (q.kind ≠ .stepe ∨ s.stepReady die b q = false → exec (.stepeClose die b) s = .next s)) ∧
    (∀ q l, x.reqs = q :: l → q.kind ≠ .stepe → s.stepReady die b q = true → s.stepDiverges die b = true →
      exec (.stepbEvaluation die b) s = .next (s.replayDiv die)) ∧
    (∀ q l, x.reqs = q :: l → q.kind ≠ .stepe → s.stepReady die b q = true → s.stepDiverges die b = false →
      (s.stepBias die b false).isNone = true → (seqRun (fun s i => s.stepPart die b (q.kind == .stepbRp) i) (bkRows e + 1 - x.pos) x.pos s).2.2 = none → ∃ t,
      exec (.stepbEvaluation die b) s = .next t ∧ (t.stepOf die b).latched = true ∧ (t.stepOf die b).reqs = l ∧
      t.block die b = e) ∧
    (∀ q l, x.reqs = q :: l → q.kind = .stepe → s.stepReady die b q = true → e.length = 9 →
      (s.stepBias die b true).isNone = true →
      (seqRun (fun s i => s.closePart die b i) (bkTiles e + bkRows e - x.pos) x.pos s).2.2 = none → ∃ t,
      exec (.stepeClose die b) s = .next t ∧ bkOpen (t.block die b) = false ∧
      bkStepno (t.block die b) = (bkStepno e + 1) % 65536 ∧ (t.stepOf die b).latched = false ∧ (t.stepOf die b).reqs = l) ∧
    (s.ntrAsked w = false → exec (.ntrAnswer w.core w.ctx) s = .next s) ∧
    (s.ntrReady w = false → s.mayDecide (dieOf w.core) 1 = true → exec (.ntrAnswer w.core w.ctx) s = .next s) ∧
    (∀ q k, c.pipe.ntr = [q] → q.ans = none → q.aside = none → s.ntrReady w = true → s.taskOf w = some k →
      (k.nest = false → exec (.ntrAnswer w.core w.ctx) s = .next (s.updCtx w fun c => c.giveNtr ntrNull)) ∧
      (k.nest = true → k.dyn = false → k.ben = false → c.slice.have_ = true → c.slice.reslice = false →
        (c.slice.pos < c.slice.hi → ∃ t, exec (.ntrAnswer w.core w.ctx) s = .next t ∧
          (t.ctx w).slice = { c.slice with pos := c.slice.pos + 1 } ∧
          (c.sched.stop ≠ none → (t.ctx w).pipe.ntr = [{ q with ans := some (k.answer c.slice.pos) }]) ∧
          (c.sched.stop = none → c.pipe.inflight = [] → c.pipe.count < q.due → (t.ctx w).pipe.ntr = [] ∧
            (t.ctx w).pipe.inflight = [⟨.tl, q.tl, wholeMask, (k.answer c.slice.pos).setWidth 2048, q.due⟩]) ∧
          (c.sched.stop = none → q.due ≤ c.pipe.count → (t.ctx w).regs.getTl q.tl = k.answer c.slice.pos)) ∧
        (c.slice.hi ≤ c.slice.pos → ∃ t, exec (.ntrAnswer w.core w.ctx) s = .next t ∧ (t.ctx w).slice = c.slice ∧
          (c.sched.stop = none → q.due ≤ c.pipe.count → (t.ctx w).regs.getTl q.tl = ntrNull)))) ∧
    (s.syncReady w = false → exec (.syncOpen w.core w.ctx) s = .next s) ∧
    (∀ lv, c.sched.syncAt = some lv → s.syncReady w = true → c.trid ≠ none → c.domCount lv ≠ 0 → ∃ t,
      exec (.syncOpen w.core w.ctx) s = .next t ∧ (t.ctx w).sched.syncAt = some (lv + 8) ∧ t.mem = s.mem) ∧
    (s.digReady w = none → exec (.digcmpResolve w.core w.ctx) s = .next s) ∧
    ∀ ok n, s.digReady w = some ok → c.sched.digWait = some n →
      exec (.digcmpResolve w.core w.ctx) s = .next (s.updSched w fun k => { k with digWait := some (if ok then n + 1 else n + 2) })

/-! ## The host edge (R384 to R398) -/

/-- R384 to R390, R397, R398: a request that the device cannot serve is an Unsupported Request; the host reads device memory that is in
host bias, and a page in device bias is flipped and held for it first; answers to the device's snoops are merged and count towards their
flip, whose device access comes before the requests that wait; the host's snoop of a host-homed line is answered with the bytes of the
copy; BAR0 shows VICFG and takes doorbells; a link that goes down is fenced until it is re-armed.
That an event which cannot occur changes nothing is the model's choice (log 10); a failed completion is the end of the context's next
access of its kind at the address (log 39). -/
def Obligations.HostEdgeEvents : Prop :=
  ∀ (s : State),
    let k := s.link
    let free := fun (pa : Nat) => s.coherentHost = true ∧ isHbm pa = true ∧ s.pageBusy (pa / 4096) = false ∧
      ∀ p ∈ k.waiting, p.1 / 4096 ≠ pa / 4096
    (∀ page, tget? k.holds page = none → exec (.biasHoldExpiry page) s = .next s) ∧
    (∀ page n, tget? k.holds page = some n → s.cycle < n → exec (.biasHoldExpiry page) s = .next s) ∧
    (∀ page n, tget? k.holds page = some n → n ≤ s.cycle →
      exec (.biasHoldExpiry page) s = .next { s with link := { k with holds := tdel k.holds page } }) ∧
    (∀ addr n bs, s.coherentHost = false ∨ addr < k.hdmbase ∨ 0xC000000000 ≤ addr - k.hdmbase →
      exec (.hostHdmRequest addr (.read n)) s = .next { s with link := { k with replies := k.replies ++ [(addr, none)] } } ∧
      exec (.hostHdmRequest addr (.write bs)) s = .next { s with link := { k with replies := k.replies ++ [(addr, none)] } }) ∧
    (∀ addr, exec (.hostHdmRequest addr .unsupported) s = .next { s with link := { k with replies := k.replies ++ [(addr, none)] } } ∧
      exec (.hostHdmRequest addr .setHdmbase) s = .next { s with link := { k with hdmbase := addr } }) ∧
    (∀ vi w, w < 8 → exec (.hostHdmRequest (0x1000 + 8 * w) (.bar0Read vi 8)) s =
      .next { s with link := { k with replies := k.replies ++ [(0x1000 + 8 * w, some (toBytes 8 (s.readReg (.vicfg vi w)).toNat))] } }) ∧
    (∀ vi q v, q < 512 → exec (.hostHdmRequest (8 * q) (.bar0Write vi v)) s = exec (.doorbellWrite vi q v) s) ∧
    (∀ pa n, free pa → s.hostBias pa = true → ∃ t, exec (.hostHdmRequest (k.hdmbase + pa) (.read n)) s = .next t ∧
      t.link.replies = k.replies ++ [(pa, some (s.homeRead pa n))] ∧ t.mem = s.mem ∧ t.l2 = s.l2 ∧ t.link.fliph = k.fliph) ∧
    (∀ pa bs, free pa → s.hostBias pa = true → pa + bs.length ≤ 0xC000000000 →
      ∃ t, exec (.hostHdmRequest (k.hdmbase + pa) (.write bs)) s = .next t ∧ t.link.replies = k.replies ∧
      ∀ a, isHbm a = true → t.homeByte a = if pa ≤ a ∧ a < pa + bs.length then bs.getD (a - pa) 0 else s.homeByte a) ∧
    (∀ pa r f, s.coherentHost = true → isHbm pa = true → tget? k.flips (pa / 4096) = some f → (∃ n, r = .read n) ∨ (∃ bs, r = .write bs) →
      exec (.hostHdmRequest (k.hdmbase + pa) r) s = .next { s with link := { k with waiting := k.waiting ++ [(pa, r)] } }) ∧
    (∀ pa n, free pa → s.hostBias pa = false → k.biasbase ≠ 0 →
      ∃ t, exec (.hostHdmRequest (k.hdmbase + pa) (.read n)) s = .next t ∧ t.hostBias pa = true ∧
      tget? t.link.holds (pa / 4096) = some (s.cycle + 4096) ∧ t.link.fliph = satAdd 32 k.fliph 1 ∧
      t.link.replies.length = k.replies.length + 1) ∧
    (∀ pa bs, (∀ inv, tget? k.snoops (pa / 128) ≠ some ⟨inv, false⟩) → tget? k.flips (pa / 4096) = none →
      exec (.bisnpResponse pa bs) s = .next s) ∧
    (∀ pa bs inv, tget? k.snoops (pa / 128) = some ⟨inv, false⟩ → ∃ t, exec (.bisnpResponse pa bs) s = .next t ∧
      tget? t.link.snoops (pa / 128) = some ⟨inv, true⟩ ∧ t.link.flips = k.flips) ∧
    (∀ pa bs n, (∀ inv, tget? k.snoops (pa / 128) ≠ some ⟨inv, false⟩) → tget? k.flips (pa / 4096) = some n → 1 < n → ∃ t,
      exec (.bisnpResponse pa bs) s = .next t ∧ tget? t.link.flips (pa / 4096) = some (n - 1)) ∧
    (∀ pa bs n, (∀ inv, tget? k.snoops (pa / 128) ≠ some ⟨inv, false⟩) → tget? k.flips (pa / 4096) = some n → n ≤ 1 → ∃ t,
      exec (.bisnpResponse pa bs) s = .next t ∧ tget? t.link.flips (pa / 4096) = none ∧ t.link.flipd = satAdd 32 k.flipd 1 ∧
      tget? t.link.grants (pa / 4096) = some s.cycle ∧ t.hostBias pa = false ∧ t.link.waiting = k.waiting) ∧
    (∀ line sn, isHostHomed (line * 128) = false → exec (.hostSnoop line sn) s = .next s) ∧
    (∀ line, tget? s.l2 line = none → exec (.hostSnoop line .data) s = .next s ∧ exec (.hostSnoop line .inv) s = .next s) ∧
    (∀ line sn l, tget? s.l2 line = some l → isHostHomed (line * 128) = true → ∃ t, exec (.hostSnoop line sn) s = .next t ∧
      t.link.replies = k.replies ++ [(line * 128, some (s.homeRead (line * 128) 128))] ∧
      (sn ≠ .data → tget? t.l2 line = none) ∧
      (sn = .data → tget? t.l2 line = some { l with dirty := 0, own := false })) ∧
    (∀ line off bs, isHostHomed (line * 128) = true → ∃ t, exec (.hostSnoop line (.store off bs)) s = .next t ∧
      ∀ i, i < bs.length → mget t.mem (line * 128 + off + i) = bs.getD i 0) ∧
    (∀ core ctx va st, exec (.hostCompletion core ctx va st .ok) s = .next s) ∧
    (∀ core ctx va st r, (s.ctx ⟨core, ctx⟩).trid = none → exec (.hostCompletion core ctx va st r) s = .next s) ∧
    (∀ core ctx va st r, r ≠ .ok → (s.ctx ⟨core, ctx⟩).trid ≠ none → (s.ctx ⟨core, ctx⟩).sched.run ≠ .idle →
      exec (.hostCompletion core ctx va st r) s = .next { s with link := { k with fails := k.fails ++ [⟨core, ctx, va, st⟩] } }) ∧
    (k.up = false ∨ s.board.boot < 6 → exec .hlctlRearm s = .next s) ∧
    (k.up = false → exec .linkDown s = .next s) ∧
    (k.up = true → ∃ t, exec .linkDown s = .next t ∧ t.link.up = false ∧ t.link.fenced = true ∧ t.link.downseen = true ∧
      t.link.flips = [] ∧ t.link.waiting = [] ∧ ∀ p ∈ t.l2, isHostHomed (p.1 * 128) = true → p.2.dirty = 0) ∧
    (k.up = true → 6 ≤ s.board.boot → exec .hlctlRearm s = .next { s with link := { k with fenced := false, head := 0 } }) ∧
    ∀ cxl, exec (.hostLinkUp cxl) s = .next { s with link := { k with up := true, cxl := cxl } }

/-! ## The board (R6, R399 to R404, R410 to R419) -/

/-- R412, R413: what the checks of a reloaded image give, in their order, and what that does. -/
def Sys2Proof.Claims.Reloads (s : State) : Prop :=
  let b := s.board
  let t := s.fwTarget
  let key := sha384 (imgBytes s.imageByte 0x020 96)
  let signed := key = b.keyDigest ∧ ecdsaGood (ofBytesBE (imgBytes s.imageByte 0x020 48)) (ofBytesBE (imgBytes s.imageByte 0x050 48))
    (ofBytesBE (imgBytes s.imageByte 0x100 48)) (ofBytesBE (imgBytes s.imageByte 0x130 48))
    (sha384 (imgBytes s.imageByte 0 256 ++ imgBytes s.imageByte 512 (imgFld s.imageByte 0x010 8))) = true
  let good := headerGood s.imageByte t = true ∧ signed
  let version := imgFld s.imageByte 8 4
  let floor := tget 0 b.floors t
  let fits := good ∧ floor ≤ version ∧ imgFld s.imageByte 6 2 = t
  (∀ n, b.fwresult ≠ 1 ∨ n ≠ t → exec (.fwReloadComplete n) s = .next s) ∧
  (b.fwresult = 1 → ¬ good → exec (.fwReloadComplete t) s = .next { s with board := { b with fwresult := 3 } }) ∧
  (b.fwresult = 1 → good → version < floor → exec (.fwReloadComplete t) s = .next { s with board := { b with fwresult := 4 } }) ∧
  (b.fwresult = 1 → good → floor ≤ version → imgFld s.imageByte 6 2 ≠ t →
    exec (.fwReloadComplete t) s = .next { s with board := { b with fwresult := 6 } }) ∧
  (b.fwresult = 1 → fits → t ≠ 3 →
    exec (.fwReloadComplete t) s = .next { s with board := { b with fwresult := 2, fwver := BitVec.ofNat 32 version } }) ∧
  (b.fwresult = 1 → fits → t = 3 → (∀ d, (s.die d).tc.state ≠ 1) → ∃ u, exec (.fwReloadComplete t) s = .next u ∧
    u.board = { b with fwresult := 2, fwver := BitVec.ofNat 32 version } ∧ u.mem = s.mem ∧
    ∀ d, d < 4 → (u.die d).tc.state = 1 ∧ (u.die d).tc.pc = BitVec.ofNat 14 (imgFld s.imageByte 0x018 8))

/-- R416 to R419: power states, the governor and thermal protection follow their registers (temperatures in 1/8 °C are the model's unit,
log 41; how much of the draw one gated cycle saves is log 65). -/
def Sys2Proof.Claims.PowerAndHeat (s : State) : Prop :=
  let b := s.board
  (∀ st : BitVec 2, b.znfM = false ∨ st = 3 ∨ (st = 2 ∧ (s.anyQueueActive = true ∨ s.anyTask = true)) →
    exec (.powerStateRequest st) s = .next s) ∧
  (∀ st : BitVec 2, b.znfM = true → st ≠ 3 → (st = 2 → s.anyQueueActive = false ∧ s.anyTask = false) →
    exec (.powerStateRequest st) s = .next { s with board := { b with
      pstate := st.toNat, exitAt := if b.pstate = 2 ∧ st ≠ 2 then s.cycle + 1400000 else b.exitAt } }) ∧
  (∀ avg g, b.znfM = false → exec (.powerGovernor avg g) s = .next s) ∧
  (∀ avg g, b.znfM = true → ∃ t, exec (.powerGovernor avg g) s = .next t ∧ t.board.avg = avg % 2 ^ 32 ∧
    t.board.peak = max b.peak (avg % 2 ^ 31) ∧
    (b.forced = true → t.board.gate = 15) ∧
    (b.forced = false → b.pstate = 2 → t.board.gate = b.gate) ∧
    (b.forced = false → b.pstate ≠ 2 → t.board.gate ≤ 15 ∧ min 15 g ≤ t.board.gate ∧
      (avg ≤ max 800 (min 3200 b.limit) → t.board.gate = min 15 g) ∧
      (max 800 (min 3200 b.limit) < avg → b.gate ≤ 15 →
        t.board.gate = 15 ∨ (16 - t.board.gate) * avg ≤ max 800 (min 3200 b.limit) * (16 - b.gate)))) ∧
  (b.znfM = true → exec .telpwrClearPeak s = .next { s with board := { b with peak := 0 } }) ∧
  (∀ die temp, die < 4 → temp < 920 ∨ b.znfM = false → ∃ t, exec (.thermalGate die temp) s = .next t ∧
    exec (.thermalTrip die temp) s = .next t ∧ (t.die die).temp = temp ∧ t.board.tripped = (b.tripped || Nat.ble 920 temp) ∧
    ((∃ d, d < 4 ∧ 840 ≤ (t.die d).temp) → t.board.forced = true ∧ t.board.gate = 15) ∧
    ((∀ d, d < 4 → (t.die d).temp < 840) → (∃ d, d < 4 ∧ 800 ≤ (t.die d).temp) → t.board.forced = b.forced ∧ t.board.gate = b.gate) ∧
    ((∀ d, d < 4 → (t.die d).temp < 800) → t.board.forced = false ∧ t.board.gate = if b.forced = true then 0 else b.gate)) ∧
  (∀ die temp, 920 ≤ temp → b.znfM = true → ∃ t, exec (.thermalGate die temp) s = .next t ∧
    exec (.thermalTrip die temp) s = .next t ∧ t.board.powered = false ∧ ∀ w, t.ctx w = Ctx.reset) ∧
  ∀ t0 t1 t2 t3, b.forced = true → t0 < 800 → t1 < 800 → t2 < 800 → t3 < 800 → ∃ t,
    exec (.thermalGateRelease t0 t1 t2 t3) s = .next t ∧ t.board.forced = false ∧ t.board.gate = 0 ∧ (t.die 0).temp = t0 ∧
    (t.die 1).temp = t1 ∧ (t.die 2).temp = t2 ∧ (t.die 3).temp = t3

/-- R6, R399 to R402, R404, R410 to R419: read-only registers discard writes; a corrected error posts a record and changes nothing that a
program sees, an uncorrectable one in HBM leaves its 64 bytes 0; a self-check keeps its press busy for 264 cycles and one that fails marks
it; a remap takes a spare that is free; a cold reset loses HBM and a warm one keeps it, and both leave every context Idle; firmware
reloads, floors, power states, the governor and thermal protection follow their registers.
What resets keep, the gated cycles, the order of the reload's checks and the unit of temperatures are readings (log 41), and the ASID of an error record log 40. -/
def Obligations.BoardEvents : Prop :=
  ∀ (s : State),
    let b := s.board
    (∀ r v, r = .fwstat ∨ r = .fwfloor0 ∨ r = .fwfloor1 ∨ r = .teltemp ∨ r = .telthr ∨ r = .biascnt ∨ r = .orphcnt →
      exec (.registerWrite r v) s = .next s) ∧
    (∀ v d, b.boot < 6 → exec (.registerWrite .biasbase v) s = .next s ∧ exec (.registerWrite (.tcwdog d) v) s = .next s) ∧
    (∀ v d, 6 ≤ b.boot →
      (s.link.biasbase ≠ 0 →
        exec (.registerWrite .biasbase v) s = .next { s with link := { s.link with biasbase := v &&& ~~~0xFFF#64 } }) ∧
      (s.link.biasbase = 0 → ∃ t, exec (.registerWrite .biasbase v) s = .next t ∧ t.link.biasbase = v &&& ~~~0xFFF#64 ∧
        ∀ pa, t.hostBias pa = false) ∧
      exec (.registerWrite (.tcwdog d) v) s = .next (s.updTc d fun t => { t with limit := fld v 31 0 }) ∧
      exec (.registerWrite .hlstat 0) s = .next s) ∧
    (∀ site syn,
      let i := s.errInfo false syn site
      ∃ t, exec (.eccErrorDetected site false syn) s = .next t ∧ t.cores = s.cores ∧ t.mem = s.mem ∧ t.l2 = s.l2 ∧ t.clus = s.clus ∧
        (if Config.mailFull s.fresh = true then (t.die i.1).mail = (s.die i.1).mail ∧
            (t.die i.1).errlost = satAdd 32 (s.die i.1).errlost 1
          else (t.die i.1).mail.length = (s.die i.1).mail.length + 1 ∧ (t.die i.1).errlost = (s.die i.1).errlost) ∧
        (t.die i.1).errseq = (s.die i.1).errseq + 1 ∧
        tget 0 (t.die i.1).errcnt i.2.unit = satAdd 64 (tget 0 (s.die i.1).errcnt i.2.unit) 1) ∧
    (∀ pa syn, isHbm pa = true → tget? s.l2 (pa / 128) = none → ∃ t, exec (.eccErrorDetected (.hbm pa) true syn) s = .next t ∧
      (∀ a, pa / 64 * 64 ≤ a → a < pa / 64 * 64 + 64 → t.homeByte a = 0) ∧
      ∀ a, isHbm a = true → a < pa / 64 * 64 ∨ pa / 64 * 64 + 64 ≤ a → t.homeByte a = s.homeByte a) ∧
    (∀ core p ok, ∃ t, exec (.pressSelfCheck core p ok) s = .next t ∧ ((t.core core).pressOf p).busyTo = s.cycle + 264 ∧
      s.cycle < ((t.core core).pressOf p).checkAt ∧ ((t.core core).pressOf p).checkAt % 2 ^ 24 = 0 ∧
      ((t.core core).pressOf p).failed = (((s.core core).pressOf p).failed || !ok) ∧
      (ok = true → ((t.core core).pressOf p).issuers = [])) ∧
    (∀ st ch row sp, 12 ≤ st ∨ 32 ≤ ch ∨ 64 ≤ sp → exec (.hbmRowRemap st ch row sp) s = .next s) ∧
    (∀ st ch row sp, st < 12 → ch < 32 → sp < 64 → (∀ r ∈ s.remaps, r.stack ≠ st) →
      exec (.hbmRowRemap st ch row sp) s = .next { s with remaps := s.remaps ++ [⟨st, ch, some row, sp, false⟩] }) ∧
    (∀ st ch sp, 12 ≤ st ∨ 32 ≤ ch ∨ 2 ≤ sp → exec (.hbmChannelSpare st ch sp) s = .next s) ∧
    (∀ st ch sp, st < 12 → ch < 32 → sp < 2 → (∀ r ∈ s.remaps, r.stack ≠ st) →
      exec (.hbmChannelSpare st ch sp) s = .next { s with remaps := s.remaps ++ [⟨st, ch, none, sp, false⟩] }) ∧
    (∃ t, exec .coldReset s = .next t ∧ (∀ w, t.ctx w = Ctx.reset) ∧ (∀ a, isHbm a = true → mget t.mem a = 0) ∧ t.queues = [] ∧
      t.board.tripped = false ∧ t.board.powered = true ∧ t.remaps = coldRemaps s.remaps ∧ t.board.floors = b.floors) ∧
    (b.powered = true → Memory.wf s.mem → ∃ t, exec .warmReset s = .next t ∧ (∀ w, t.ctx w = Ctx.reset) ∧
      (∀ a, asidByte a = false → mget t.mem a = mget s.mem a) ∧ t.queues = [] ∧ t.remaps = s.remaps ∧
      t.board.tripped = b.tripped) ∧
    (b.powered = false → exec .warmReset s = .next s) ∧
    (∃ t, exec .powerLoss s = .next t ∧ (∀ w, t.ctx w = Ctx.reset) ∧ (∀ a, isHbm a = true → mget t.mem a = 0) ∧
      t.board.powered = false ∧ ∀ core, exec (.issueSelect core) t = .next t) ∧
    (∀ v, b.fwresult = 1 → exec (.fwReload v) s = .next s) ∧
    (∀ v, b.fwresult ≠ 1 → ∃ t, exec (.fwReload v) s = .next t ∧ fld t.board.fwctl 63 12 = fld v 63 12 ∧ t.fwTarget = fld v 3 1 ∧
      t.board.fwresult = if bit v 0 = false then b.fwresult else if 4 ≤ fld v 3 1 then 6
        else if fld v 3 1 = 0 ∧ (s.anyQueueActive = true ∨ s.anyTask = true) then 5 else 1) ∧
    Claims.Reloads s ∧
    (∀ v, b.boot < 6 ∨ fld v 63 32 ≤ tget 0 b.floors (fld v 1 0) → exec (.fwfloorSet v) s = .next s) ∧
    (∀ v, 6 ≤ b.boot → tget 0 b.floors (fld v 1 0) < fld v 63 32 →
      exec (.fwfloorSet v) s = .next { s with board := { b with floors := tset b.floors (fld v 1 0) (fld v 63 32) } }) ∧
    Claims.PowerAndHeat s
end

