-- ==== Sys2Proof/Laws/Decode.lean ====
section
/-! SUPPORT. The laws of the encodings: the fields of an assembled word and of each assembled payload. -/

namespace Sys2Proof

/-! ## Fields of an append -/

/-- Bits at or above the low part of an append are those of the high part. -/
theorem extract_append_high {m n : Nat} (a : BitVec m) (b : BitVec n) (i k : Nat) :
    (a ++ b).extractLsb' (n + i) k = a.extractLsb' i k := by
  ext j hj
  simp only [BitVec.getElem_extractLsb', BitVec.getLsbD_append]
  rw [if_neg (by omega)]
  congr 1
  omega

/-- Bits below the low part's width are those of the low part. -/
theorem extract_append_low {m n : Nat} (a : BitVec m) (b : BitVec n) (i k : Nat) (h : i + k ≤ n) :
    (a ++ b).extractLsb' i k = b.extractLsb' i k := by
  ext j hj
  simp only [BitVec.getElem_extractLsb', BitVec.getLsbD_append]
  rw [if_pos (by omega)]

/-- All bits of a word are the word. -/
theorem extract_whole {n : Nat} (a : BitVec n) : a.extractLsb' 0 n = a := by
  ext j hj
  simp

/-! ## Slot words (R219, Table 10-3) -/

section
variable (s : BitVec 1) (l : BitVec 3) (o : BitVec 6) (p : BitVec 22)

@[simp] theorem payOf_word : payOf (s ++ l ++ o ++ p) = p := by
  unfold payOf
  exact (extract_append_low (s ++ l ++ o) p 0 22 (by omega)).trans (extract_whole p)

@[simp] theorem opOf_word : opOf (s ++ l ++ o ++ p) = o.toNat := by
  unfold opOf
  exact congrArg BitVec.toNat ((extract_append_high (s ++ l ++ o) p 0 6).trans
    ((extract_append_low (s ++ l) o 0 6 (by omega)).trans (extract_whole o)))

@[simp] theorem laneOf_word : laneOf (s ++ l ++ o ++ p) = l.toNat := by
  unfold laneOf
  exact congrArg BitVec.toNat ((extract_append_high (s ++ l ++ o) p 6 3).trans
    ((extract_append_high (s ++ l) o 0 3).trans ((extract_append_low s l 0 3 (by omega)).trans (extract_whole l))))

theorem stopOf_word : stopOf (s ++ l ++ o ++ p) = s.getLsbD 0 := by
  unfold stopOf
  have h : BitVec.extractLsb' 31 1 (s ++ l ++ o ++ p : W32) = s :=
    (extract_append_high (s ++ l ++ o) p 9 1).trans ((extract_append_high (s ++ l) o 3 1).trans
      ((extract_append_high s l 0 1).trans (extract_whole s)))
  have := congrArg (fun b : BitVec 1 => b.getLsbD 0) h
  simpa using this

end

/-- The extension of a wide slot's second word. -/
@[simp] theorem ext_word (s : BitVec 1) (x : BitVec 31) : BitVec.extractLsb' 0 31 (s ++ x : W32) = x :=
  (extract_append_low s x 0 31 (by omega)).trans (extract_whole x)

theorem stopOf_ext (s : BitVec 1) (x : BitVec 31) : stopOf (s ++ x) = s.getLsbD 0 := by
  unfold stopOf
  have h : BitVec.extractLsb' 31 1 (s ++ x : W32) = s := (extract_append_high s x 0 1).trans (extract_whole s)
  have := congrArg (fun b : BitVec 1 => b.getLsbD 0) h
  simpa using this

/-- The words of a slot are one bundle (R220). -/
theorem bundleOf_words (e : SlotEnc) : bundleOf 8 e.words = some e.words := by
  unfold SlotEnc.words
  cases e.ext with
  | none => simp only [bundleOf, stopOf_word]; rfl
  | some x => simp only [bundleOf, stopOf_word, stopOf_ext]; rfl

/-- What the decoder reads from the words of a slot whose opcode is wide exactly if it has an extension. -/
theorem decodeSlots_words (e : SlotEnc) (h : wideOp e.lane.toNat e.op.toNat = e.ext.isSome) :
    decodeSlots 0 e.words =
      some [⟨e.lane.toNat, e.words.length, decodeSlot e.lane.toNat e.op.toNat e.pay (e.ext.getD 0)⟩] := by
  obtain ⟨l, o, p, x⟩ := e
  cases x with
  | none =>
    simp only [Option.isSome_none] at h
    simp [SlotEnc.words, decodeSlots, h]
  | some x =>
    simp only [Option.isSome_some] at h
    simp [SlotEnc.words, decodeSlots, h]

/-! ## Payloads (Tables 10-4 to 10-8) -/

@[simp] theorem pF_payR (d a b : R5) (f : BitVec 7) : pF (payR d a b f) = f :=
  (extract_append_low (d ++ a ++ b) f 0 7 (by omega)).trans (extract_whole f)

@[simp] theorem pB_payR (d a b : R5) (f : BitVec 7) : pB (payR d a b f) = b :=
  (extract_append_high (d ++ a ++ b) f 0 5).trans ((extract_append_low (d ++ a) b 0 5 (by omega)).trans (extract_whole b))

@[simp] theorem pA_payR (d a b : R5) (f : BitVec 7) : pA (payR d a b f) = a :=
  (extract_append_high (d ++ a ++ b) f 5 5).trans ((extract_append_high (d ++ a) b 0 5).trans
    ((extract_append_low d a 0 5 (by omega)).trans (extract_whole a)))

@[simp] theorem pD_payR (d a b : R5) (f : BitVec 7) : pD (payR d a b f) = d :=
  (extract_append_high (d ++ a ++ b) f 10 5).trans ((extract_append_high (d ++ a) b 5 5).trans
    ((extract_append_high d a 0 5).trans (extract_whole d)))

theorem payR_low (d a b : R5) (f : BitVec 7) (i k : Nat) (h : i + k ≤ 7) : (payR d a b f).extractLsb' i k = f.extractLsb' i k :=
  extract_append_low (d ++ a ++ b) f i k h

@[simp] theorem pI_payI (d a : R5) (n : BitVec 12) : pI (payI d a n) = n :=
  (extract_append_low (d ++ a) n 0 12 (by omega)).trans (extract_whole n)

@[simp] theorem pA_payI (d a : R5) (n : BitVec 12) : pA (payI d a n) = a :=
  (extract_append_high (d ++ a) n 0 5).trans ((extract_append_low d a 0 5 (by omega)).trans (extract_whole a))

@[simp] theorem pD_payI (d a : R5) (n : BitVec 12) : pD (payI d a n) = d :=
  (extract_append_high (d ++ a) n 5 5).trans ((extract_append_high d a 0 5).trans (extract_whole d))

theorem payI_low (d a : R5) (n : BitVec 12) (i k : Nat) (h : i + k ≤ 12) : (payI d a n).extractLsb' i k = n.extractLsb' i k :=
  extract_append_low (d ++ a) n i k h

@[simp] theorem pL_payL (d : R5) (a : BitVec 4) (n : BitVec 13) : pL (payL d a n) = n :=
  (extract_append_low (d ++ a) n 0 13 (by omega)).trans (extract_whole n)

@[simp] theorem pAr_payL (d : R5) (a : BitVec 4) (n : BitVec 13) : pAr (payL d a n) = a :=
  (extract_append_high (d ++ a) n 0 4).trans ((extract_append_low d a 0 4 (by omega)).trans (extract_whole a))

@[simp] theorem pD_payL (d : R5) (a : BitVec 4) (n : BitVec 13) : pD (payL d a n) = d :=
  (extract_append_high (d ++ a) n 4 5).trans ((extract_append_high d a 0 5).trans (extract_whole d))

theorem payL_low (d : R5) (a : BitVec 4) (n : BitVec 13) (i k : Nat) (h : i + k ≤ 13) : (payL d a n).extractLsb' i k = n.extractLsb' i k :=
  extract_append_low (d ++ a) n i k h

end Sys2Proof
end

