-- ==== Sys2Proof/Laws/State.lean ====
section
/-! SUPPORT. What each named update of the state leaves alone: one lemma per field and update, by rfl, and what it writes. -/

namespace Sys2Proof.Machine

/-! ## State.updCore -/

@[simp] theorem State.updCore_clus (s : State) (c : Nat) (f : Core → Core) : (s.updCore c f).clus = s.clus := rfl
@[simp] theorem State.updCore_dies (s : State) (c : Nat) (f : Core → Core) : (s.updCore c f).dies = s.dies := rfl
@[simp] theorem State.updCore_comm (s : State) (c : Nat) (f : Core → Core) : (s.updCore c f).comm = s.comm := rfl
@[simp] theorem State.updCore_tasks (s : State) (c : Nat) (f : Core → Core) : (s.updCore c f).tasks = s.tasks := rfl
@[simp] theorem State.updCore_mem (s : State) (c : Nat) (f : Core → Core) : (s.updCore c f).mem = s.mem := rfl
@[simp] theorem State.updCore_l2 (s : State) (c : Nat) (f : Core → Core) : (s.updCore c f).l2 = s.l2 := rfl
@[simp] theorem State.updCore_homeRec (s : State) (c : Nat) (f : Core → Core) : (s.updCore c f).homeRec = s.homeRec := rfl
@[simp] theorem State.updCore_tags (s : State) (c : Nat) (f : Core → Core) : (s.updCore c f).tags = s.tags := rfl
@[simp] theorem State.updCore_releases (s : State) (c : Nat) (f : Core → Core) : (s.updCore c f).releases = s.releases := rfl
@[simp] theorem State.updCore_cacheOps (s : State) (c : Nat) (f : Core → Core) : (s.updCore c f).cacheOps = s.cacheOps := rfl
@[simp] theorem State.updCore_queues (s : State) (c : Nat) (f : Core → Core) : (s.updCore c f).queues = s.queues := rfl
@[simp] theorem State.updCore_link (s : State) (c : Nat) (f : Core → Core) : (s.updCore c f).link = s.link := rfl
@[simp] theorem State.updCore_board (s : State) (c : Nat) (f : Core → Core) : (s.updCore c f).board = s.board := rfl
@[simp] theorem State.updCore_remaps (s : State) (c : Nat) (f : Core → Core) : (s.updCore c f).remaps = s.remaps := rfl
@[simp] theorem State.updCore_cycle (s : State) (c : Nat) (f : Core → Core) : (s.updCore c f).cycle = s.cycle := rfl
@[simp] theorem State.updCore_accId (s : State) (c : Nat) (f : Core → Core) : (s.updCore c f).accId = s.accId := rfl
@[simp] theorem State.updCore_fenceId (s : State) (c : Nat) (f : Core → Core) : (s.updCore c f).fenceId = s.fenceId := rfl
@[simp] theorem State.updCore_spares (s : State) (c : Nat) (f : Core → Core) : (s.updCore c f).spares = s.spares := rfl
@[simp] theorem State.updCore_fresh (s : State) (c : Nat) (f : Core → Core) : (s.updCore c f).fresh = s.fresh := rfl
@[simp] theorem State.updCore_focus (s : State) (c : Nat) (f : Core → Core) : (s.updCore c f).focus = s.focus := rfl
@[simp] theorem State.updCore_agenda (s : State) (c : Nat) (f : Core → Core) : (s.updCore c f).agenda = s.agenda := rfl

/-! ## State.updCtx -/

@[simp] theorem State.updCtx_clus (s : State) (w : At) (f : Ctx → Ctx) : (s.updCtx w f).clus = s.clus := rfl
@[simp] theorem State.updCtx_dies (s : State) (w : At) (f : Ctx → Ctx) : (s.updCtx w f).dies = s.dies := rfl
@[simp] theorem State.updCtx_comm (s : State) (w : At) (f : Ctx → Ctx) : (s.updCtx w f).comm = s.comm := rfl
@[simp] theorem State.updCtx_tasks (s : State) (w : At) (f : Ctx → Ctx) : (s.updCtx w f).tasks = s.tasks := rfl
@[simp] theorem State.updCtx_mem (s : State) (w : At) (f : Ctx → Ctx) : (s.updCtx w f).mem = s.mem := rfl
@[simp] theorem State.updCtx_l2 (s : State) (w : At) (f : Ctx → Ctx) : (s.updCtx w f).l2 = s.l2 := rfl
@[simp] theorem State.updCtx_homeRec (s : State) (w : At) (f : Ctx → Ctx) : (s.updCtx w f).homeRec = s.homeRec := rfl
@[simp] theorem State.updCtx_tags (s : State) (w : At) (f : Ctx → Ctx) : (s.updCtx w f).tags = s.tags := rfl
@[simp] theorem State.updCtx_releases (s : State) (w : At) (f : Ctx → Ctx) : (s.updCtx w f).releases = s.releases := rfl
@[simp] theorem State.updCtx_cacheOps (s : State) (w : At) (f : Ctx → Ctx) : (s.updCtx w f).cacheOps = s.cacheOps := rfl
@[simp] theorem State.updCtx_queues (s : State) (w : At) (f : Ctx → Ctx) : (s.updCtx w f).queues = s.queues := rfl
@[simp] theorem State.updCtx_link (s : State) (w : At) (f : Ctx → Ctx) : (s.updCtx w f).link = s.link := rfl
@[simp] theorem State.updCtx_board (s : State) (w : At) (f : Ctx → Ctx) : (s.updCtx w f).board = s.board := rfl
@[simp] theorem State.updCtx_remaps (s : State) (w : At) (f : Ctx → Ctx) : (s.updCtx w f).remaps = s.remaps := rfl
@[simp] theorem State.updCtx_cycle (s : State) (w : At) (f : Ctx → Ctx) : (s.updCtx w f).cycle = s.cycle := rfl
@[simp] theorem State.updCtx_accId (s : State) (w : At) (f : Ctx → Ctx) : (s.updCtx w f).accId = s.accId := rfl
@[simp] theorem State.updCtx_fenceId (s : State) (w : At) (f : Ctx → Ctx) : (s.updCtx w f).fenceId = s.fenceId := rfl
@[simp] theorem State.updCtx_spares (s : State) (w : At) (f : Ctx → Ctx) : (s.updCtx w f).spares = s.spares := rfl
@[simp] theorem State.updCtx_fresh (s : State) (w : At) (f : Ctx → Ctx) : (s.updCtx w f).fresh = s.fresh := rfl
@[simp] theorem State.updCtx_focus (s : State) (w : At) (f : Ctx → Ctx) : (s.updCtx w f).focus = s.focus := rfl
@[simp] theorem State.updCtx_agenda (s : State) (w : At) (f : Ctx → Ctx) : (s.updCtx w f).agenda = s.agenda := rfl

/-! ## State.updRegs -/

@[simp] theorem State.updRegs_clus (s : State) (w : At) (f : Regs → Regs) : (s.updRegs w f).clus = s.clus := rfl
@[simp] theorem State.updRegs_dies (s : State) (w : At) (f : Regs → Regs) : (s.updRegs w f).dies = s.dies := rfl
@[simp] theorem State.updRegs_comm (s : State) (w : At) (f : Regs → Regs) : (s.updRegs w f).comm = s.comm := rfl
@[simp] theorem State.updRegs_tasks (s : State) (w : At) (f : Regs → Regs) : (s.updRegs w f).tasks = s.tasks := rfl
@[simp] theorem State.updRegs_mem (s : State) (w : At) (f : Regs → Regs) : (s.updRegs w f).mem = s.mem := rfl
@[simp] theorem State.updRegs_l2 (s : State) (w : At) (f : Regs → Regs) : (s.updRegs w f).l2 = s.l2 := rfl
@[simp] theorem State.updRegs_homeRec (s : State) (w : At) (f : Regs → Regs) : (s.updRegs w f).homeRec = s.homeRec := rfl
@[simp] theorem State.updRegs_tags (s : State) (w : At) (f : Regs → Regs) : (s.updRegs w f).tags = s.tags := rfl
@[simp] theorem State.updRegs_releases (s : State) (w : At) (f : Regs → Regs) : (s.updRegs w f).releases = s.releases := rfl
@[simp] theorem State.updRegs_cacheOps (s : State) (w : At) (f : Regs → Regs) : (s.updRegs w f).cacheOps = s.cacheOps := rfl
@[simp] theorem State.updRegs_queues (s : State) (w : At) (f : Regs → Regs) : (s.updRegs w f).queues = s.queues := rfl
@[simp] theorem State.updRegs_link (s : State) (w : At) (f : Regs → Regs) : (s.updRegs w f).link = s.link := rfl
@[simp] theorem State.updRegs_board (s : State) (w : At) (f : Regs → Regs) : (s.updRegs w f).board = s.board := rfl
@[simp] theorem State.updRegs_remaps (s : State) (w : At) (f : Regs → Regs) : (s.updRegs w f).remaps = s.remaps := rfl
@[simp] theorem State.updRegs_cycle (s : State) (w : At) (f : Regs → Regs) : (s.updRegs w f).cycle = s.cycle := rfl
@[simp] theorem State.updRegs_accId (s : State) (w : At) (f : Regs → Regs) : (s.updRegs w f).accId = s.accId := rfl
@[simp] theorem State.updRegs_fenceId (s : State) (w : At) (f : Regs → Regs) : (s.updRegs w f).fenceId = s.fenceId := rfl
@[simp] theorem State.updRegs_spares (s : State) (w : At) (f : Regs → Regs) : (s.updRegs w f).spares = s.spares := rfl
@[simp] theorem State.updRegs_fresh (s : State) (w : At) (f : Regs → Regs) : (s.updRegs w f).fresh = s.fresh := rfl
@[simp] theorem State.updRegs_focus (s : State) (w : At) (f : Regs → Regs) : (s.updRegs w f).focus = s.focus := rfl
@[simp] theorem State.updRegs_agenda (s : State) (w : At) (f : Regs → Regs) : (s.updRegs w f).agenda = s.agenda := rfl

/-! ## State.updSys -/

@[simp] theorem State.updSys_clus (s : State) (w : At) (f : Sys → Sys) : (s.updSys w f).clus = s.clus := rfl
@[simp] theorem State.updSys_dies (s : State) (w : At) (f : Sys → Sys) : (s.updSys w f).dies = s.dies := rfl
@[simp] theorem State.updSys_comm (s : State) (w : At) (f : Sys → Sys) : (s.updSys w f).comm = s.comm := rfl
@[simp] theorem State.updSys_tasks (s : State) (w : At) (f : Sys → Sys) : (s.updSys w f).tasks = s.tasks := rfl
@[simp] theorem State.updSys_mem (s : State) (w : At) (f : Sys → Sys) : (s.updSys w f).mem = s.mem := rfl
@[simp] theorem State.updSys_l2 (s : State) (w : At) (f : Sys → Sys) : (s.updSys w f).l2 = s.l2 := rfl
@[simp] theorem State.updSys_homeRec (s : State) (w : At) (f : Sys → Sys) : (s.updSys w f).homeRec = s.homeRec := rfl
@[simp] theorem State.updSys_tags (s : State) (w : At) (f : Sys → Sys) : (s.updSys w f).tags = s.tags := rfl
@[simp] theorem State.updSys_releases (s : State) (w : At) (f : Sys → Sys) : (s.updSys w f).releases = s.releases := rfl
@[simp] theorem State.updSys_cacheOps (s : State) (w : At) (f : Sys → Sys) : (s.updSys w f).cacheOps = s.cacheOps := rfl
@[simp] theorem State.updSys_queues (s : State) (w : At) (f : Sys → Sys) : (s.updSys w f).queues = s.queues := rfl
@[simp] theorem State.updSys_link (s : State) (w : At) (f : Sys → Sys) : (s.updSys w f).link = s.link := rfl
@[simp] theorem State.updSys_board (s : State) (w : At) (f : Sys → Sys) : (s.updSys w f).board = s.board := rfl
@[simp] theorem State.updSys_remaps (s : State) (w : At) (f : Sys → Sys) : (s.updSys w f).remaps = s.remaps := rfl
@[simp] theorem State.updSys_cycle (s : State) (w : At) (f : Sys → Sys) : (s.updSys w f).cycle = s.cycle := rfl
@[simp] theorem State.updSys_accId (s : State) (w : At) (f : Sys → Sys) : (s.updSys w f).accId = s.accId := rfl
@[simp] theorem State.updSys_fenceId (s : State) (w : At) (f : Sys → Sys) : (s.updSys w f).fenceId = s.fenceId := rfl
@[simp] theorem State.updSys_spares (s : State) (w : At) (f : Sys → Sys) : (s.updSys w f).spares = s.spares := rfl
@[simp] theorem State.updSys_fresh (s : State) (w : At) (f : Sys → Sys) : (s.updSys w f).fresh = s.fresh := rfl
@[simp] theorem State.updSys_focus (s : State) (w : At) (f : Sys → Sys) : (s.updSys w f).focus = s.focus := rfl
@[simp] theorem State.updSys_agenda (s : State) (w : At) (f : Sys → Sys) : (s.updSys w f).agenda = s.agenda := rfl

/-! ## State.updEng -/

@[simp] theorem State.updEng_clus (s : State) (w : At) (f : Eng → Eng) : (s.updEng w f).clus = s.clus := rfl
@[simp] theorem State.updEng_dies (s : State) (w : At) (f : Eng → Eng) : (s.updEng w f).dies = s.dies := rfl
@[simp] theorem State.updEng_comm (s : State) (w : At) (f : Eng → Eng) : (s.updEng w f).comm = s.comm := rfl
@[simp] theorem State.updEng_tasks (s : State) (w : At) (f : Eng → Eng) : (s.updEng w f).tasks = s.tasks := rfl
@[simp] theorem State.updEng_mem (s : State) (w : At) (f : Eng → Eng) : (s.updEng w f).mem = s.mem := rfl
@[simp] theorem State.updEng_l2 (s : State) (w : At) (f : Eng → Eng) : (s.updEng w f).l2 = s.l2 := rfl
@[simp] theorem State.updEng_homeRec (s : State) (w : At) (f : Eng → Eng) : (s.updEng w f).homeRec = s.homeRec := rfl
@[simp] theorem State.updEng_tags (s : State) (w : At) (f : Eng → Eng) : (s.updEng w f).tags = s.tags := rfl
@[simp] theorem State.updEng_releases (s : State) (w : At) (f : Eng → Eng) : (s.updEng w f).releases = s.releases := rfl
@[simp] theorem State.updEng_cacheOps (s : State) (w : At) (f : Eng → Eng) : (s.updEng w f).cacheOps = s.cacheOps := rfl
@[simp] theorem State.updEng_queues (s : State) (w : At) (f : Eng → Eng) : (s.updEng w f).queues = s.queues := rfl
@[simp] theorem State.updEng_link (s : State) (w : At) (f : Eng → Eng) : (s.updEng w f).link = s.link := rfl
@[simp] theorem State.updEng_board (s : State) (w : At) (f : Eng → Eng) : (s.updEng w f).board = s.board := rfl
@[simp] theorem State.updEng_remaps (s : State) (w : At) (f : Eng → Eng) : (s.updEng w f).remaps = s.remaps := rfl
@[simp] theorem State.updEng_cycle (s : State) (w : At) (f : Eng → Eng) : (s.updEng w f).cycle = s.cycle := rfl
@[simp] theorem State.updEng_accId (s : State) (w : At) (f : Eng → Eng) : (s.updEng w f).accId = s.accId := rfl
@[simp] theorem State.updEng_fenceId (s : State) (w : At) (f : Eng → Eng) : (s.updEng w f).fenceId = s.fenceId := rfl
@[simp] theorem State.updEng_spares (s : State) (w : At) (f : Eng → Eng) : (s.updEng w f).spares = s.spares := rfl
@[simp] theorem State.updEng_fresh (s : State) (w : At) (f : Eng → Eng) : (s.updEng w f).fresh = s.fresh := rfl
@[simp] theorem State.updEng_focus (s : State) (w : At) (f : Eng → Eng) : (s.updEng w f).focus = s.focus := rfl
@[simp] theorem State.updEng_agenda (s : State) (w : At) (f : Eng → Eng) : (s.updEng w f).agenda = s.agenda := rfl

/-! ## State.updPipe -/

@[simp] theorem State.updPipe_clus (s : State) (w : At) (f : Pipe → Pipe) : (s.updPipe w f).clus = s.clus := rfl
@[simp] theorem State.updPipe_dies (s : State) (w : At) (f : Pipe → Pipe) : (s.updPipe w f).dies = s.dies := rfl
@[simp] theorem State.updPipe_comm (s : State) (w : At) (f : Pipe → Pipe) : (s.updPipe w f).comm = s.comm := rfl
@[simp] theorem State.updPipe_tasks (s : State) (w : At) (f : Pipe → Pipe) : (s.updPipe w f).tasks = s.tasks := rfl
@[simp] theorem State.updPipe_mem (s : State) (w : At) (f : Pipe → Pipe) : (s.updPipe w f).mem = s.mem := rfl
@[simp] theorem State.updPipe_l2 (s : State) (w : At) (f : Pipe → Pipe) : (s.updPipe w f).l2 = s.l2 := rfl
@[simp] theorem State.updPipe_homeRec (s : State) (w : At) (f : Pipe → Pipe) : (s.updPipe w f).homeRec = s.homeRec := rfl
@[simp] theorem State.updPipe_tags (s : State) (w : At) (f : Pipe → Pipe) : (s.updPipe w f).tags = s.tags := rfl
@[simp] theorem State.updPipe_releases (s : State) (w : At) (f : Pipe → Pipe) : (s.updPipe w f).releases = s.releases := rfl
@[simp] theorem State.updPipe_cacheOps (s : State) (w : At) (f : Pipe → Pipe) : (s.updPipe w f).cacheOps = s.cacheOps := rfl
@[simp] theorem State.updPipe_queues (s : State) (w : At) (f : Pipe → Pipe) : (s.updPipe w f).queues = s.queues := rfl
@[simp] theorem State.updPipe_link (s : State) (w : At) (f : Pipe → Pipe) : (s.updPipe w f).link = s.link := rfl
@[simp] theorem State.updPipe_board (s : State) (w : At) (f : Pipe → Pipe) : (s.updPipe w f).board = s.board := rfl
@[simp] theorem State.updPipe_remaps (s : State) (w : At) (f : Pipe → Pipe) : (s.updPipe w f).remaps = s.remaps := rfl
@[simp] theorem State.updPipe_cycle (s : State) (w : At) (f : Pipe → Pipe) : (s.updPipe w f).cycle = s.cycle := rfl
@[simp] theorem State.updPipe_accId (s : State) (w : At) (f : Pipe → Pipe) : (s.updPipe w f).accId = s.accId := rfl
@[simp] theorem State.updPipe_fenceId (s : State) (w : At) (f : Pipe → Pipe) : (s.updPipe w f).fenceId = s.fenceId := rfl
@[simp] theorem State.updPipe_spares (s : State) (w : At) (f : Pipe → Pipe) : (s.updPipe w f).spares = s.spares := rfl
@[simp] theorem State.updPipe_fresh (s : State) (w : At) (f : Pipe → Pipe) : (s.updPipe w f).fresh = s.fresh := rfl
@[simp] theorem State.updPipe_focus (s : State) (w : At) (f : Pipe → Pipe) : (s.updPipe w f).focus = s.focus := rfl
@[simp] theorem State.updPipe_agenda (s : State) (w : At) (f : Pipe → Pipe) : (s.updPipe w f).agenda = s.agenda := rfl

/-! ## State.updSched -/

@[simp] theorem State.updSched_clus (s : State) (w : At) (f : Sched → Sched) : (s.updSched w f).clus = s.clus := rfl
@[simp] theorem State.updSched_dies (s : State) (w : At) (f : Sched → Sched) : (s.updSched w f).dies = s.dies := rfl
@[simp] theorem State.updSched_comm (s : State) (w : At) (f : Sched → Sched) : (s.updSched w f).comm = s.comm := rfl
@[simp] theorem State.updSched_tasks (s : State) (w : At) (f : Sched → Sched) : (s.updSched w f).tasks = s.tasks := rfl
@[simp] theorem State.updSched_mem (s : State) (w : At) (f : Sched → Sched) : (s.updSched w f).mem = s.mem := rfl
@[simp] theorem State.updSched_l2 (s : State) (w : At) (f : Sched → Sched) : (s.updSched w f).l2 = s.l2 := rfl
@[simp] theorem State.updSched_homeRec (s : State) (w : At) (f : Sched → Sched) : (s.updSched w f).homeRec = s.homeRec := rfl
@[simp] theorem State.updSched_tags (s : State) (w : At) (f : Sched → Sched) : (s.updSched w f).tags = s.tags := rfl
@[simp] theorem State.updSched_releases (s : State) (w : At) (f : Sched → Sched) : (s.updSched w f).releases = s.releases := rfl
@[simp] theorem State.updSched_cacheOps (s : State) (w : At) (f : Sched → Sched) : (s.updSched w f).cacheOps = s.cacheOps := rfl
@[simp] theorem State.updSched_queues (s : State) (w : At) (f : Sched → Sched) : (s.updSched w f).queues = s.queues := rfl
@[simp] theorem State.updSched_link (s : State) (w : At) (f : Sched → Sched) : (s.updSched w f).link = s.link := rfl
@[simp] theorem State.updSched_board (s : State) (w : At) (f : Sched → Sched) : (s.updSched w f).board = s.board := rfl
@[simp] theorem State.updSched_remaps (s : State) (w : At) (f : Sched → Sched) : (s.updSched w f).remaps = s.remaps := rfl
@[simp] theorem State.updSched_cycle (s : State) (w : At) (f : Sched → Sched) : (s.updSched w f).cycle = s.cycle := rfl
@[simp] theorem State.updSched_accId (s : State) (w : At) (f : Sched → Sched) : (s.updSched w f).accId = s.accId := rfl
@[simp] theorem State.updSched_fenceId (s : State) (w : At) (f : Sched → Sched) : (s.updSched w f).fenceId = s.fenceId := rfl
@[simp] theorem State.updSched_spares (s : State) (w : At) (f : Sched → Sched) : (s.updSched w f).spares = s.spares := rfl
@[simp] theorem State.updSched_fresh (s : State) (w : At) (f : Sched → Sched) : (s.updSched w f).fresh = s.fresh := rfl
@[simp] theorem State.updSched_focus (s : State) (w : At) (f : Sched → Sched) : (s.updSched w f).focus = s.focus := rfl
@[simp] theorem State.updSched_agenda (s : State) (w : At) (f : Sched → Sched) : (s.updSched w f).agenda = s.agenda := rfl

/-! ## State.updPress -/

@[simp] theorem State.updPress_clus (s : State) (c p : Nat) (f : Press → Press) : (s.updPress c p f).clus = s.clus := rfl
@[simp] theorem State.updPress_dies (s : State) (c p : Nat) (f : Press → Press) : (s.updPress c p f).dies = s.dies := rfl
@[simp] theorem State.updPress_comm (s : State) (c p : Nat) (f : Press → Press) : (s.updPress c p f).comm = s.comm := rfl
@[simp] theorem State.updPress_tasks (s : State) (c p : Nat) (f : Press → Press) : (s.updPress c p f).tasks = s.tasks := rfl
@[simp] theorem State.updPress_mem (s : State) (c p : Nat) (f : Press → Press) : (s.updPress c p f).mem = s.mem := rfl
@[simp] theorem State.updPress_l2 (s : State) (c p : Nat) (f : Press → Press) : (s.updPress c p f).l2 = s.l2 := rfl
@[simp] theorem State.updPress_homeRec (s : State) (c p : Nat) (f : Press → Press) : (s.updPress c p f).homeRec = s.homeRec := rfl
@[simp] theorem State.updPress_tags (s : State) (c p : Nat) (f : Press → Press) : (s.updPress c p f).tags = s.tags := rfl
@[simp] theorem State.updPress_releases (s : State) (c p : Nat) (f : Press → Press) : (s.updPress c p f).releases = s.releases := rfl
@[simp] theorem State.updPress_cacheOps (s : State) (c p : Nat) (f : Press → Press) : (s.updPress c p f).cacheOps = s.cacheOps := rfl
@[simp] theorem State.updPress_queues (s : State) (c p : Nat) (f : Press → Press) : (s.updPress c p f).queues = s.queues := rfl
@[simp] theorem State.updPress_link (s : State) (c p : Nat) (f : Press → Press) : (s.updPress c p f).link = s.link := rfl
@[simp] theorem State.updPress_board (s : State) (c p : Nat) (f : Press → Press) : (s.updPress c p f).board = s.board := rfl
@[simp] theorem State.updPress_remaps (s : State) (c p : Nat) (f : Press → Press) : (s.updPress c p f).remaps = s.remaps := rfl
@[simp] theorem State.updPress_cycle (s : State) (c p : Nat) (f : Press → Press) : (s.updPress c p f).cycle = s.cycle := rfl
@[simp] theorem State.updPress_accId (s : State) (c p : Nat) (f : Press → Press) : (s.updPress c p f).accId = s.accId := rfl
@[simp] theorem State.updPress_fenceId (s : State) (c p : Nat) (f : Press → Press) : (s.updPress c p f).fenceId = s.fenceId := rfl
@[simp] theorem State.updPress_spares (s : State) (c p : Nat) (f : Press → Press) : (s.updPress c p f).spares = s.spares := rfl
@[simp] theorem State.updPress_fresh (s : State) (c p : Nat) (f : Press → Press) : (s.updPress c p f).fresh = s.fresh := rfl
@[simp] theorem State.updPress_focus (s : State) (c p : Nat) (f : Press → Press) : (s.updPress c p f).focus = s.focus := rfl
@[simp] theorem State.updPress_agenda (s : State) (c p : Nat) (f : Press → Press) : (s.updPress c p f).agenda = s.agenda := rfl

/-! ## State.updClu -/

@[simp] theorem State.updClu_cores (s : State) (c : Nat) (f : Clu → Clu) : (s.updClu c f).cores = s.cores := rfl
@[simp] theorem State.updClu_dies (s : State) (c : Nat) (f : Clu → Clu) : (s.updClu c f).dies = s.dies := rfl
@[simp] theorem State.updClu_comm (s : State) (c : Nat) (f : Clu → Clu) : (s.updClu c f).comm = s.comm := rfl
@[simp] theorem State.updClu_tasks (s : State) (c : Nat) (f : Clu → Clu) : (s.updClu c f).tasks = s.tasks := rfl
@[simp] theorem State.updClu_mem (s : State) (c : Nat) (f : Clu → Clu) : (s.updClu c f).mem = s.mem := rfl
@[simp] theorem State.updClu_l2 (s : State) (c : Nat) (f : Clu → Clu) : (s.updClu c f).l2 = s.l2 := rfl
@[simp] theorem State.updClu_homeRec (s : State) (c : Nat) (f : Clu → Clu) : (s.updClu c f).homeRec = s.homeRec := rfl
@[simp] theorem State.updClu_tags (s : State) (c : Nat) (f : Clu → Clu) : (s.updClu c f).tags = s.tags := rfl
@[simp] theorem State.updClu_releases (s : State) (c : Nat) (f : Clu → Clu) : (s.updClu c f).releases = s.releases := rfl
@[simp] theorem State.updClu_cacheOps (s : State) (c : Nat) (f : Clu → Clu) : (s.updClu c f).cacheOps = s.cacheOps := rfl
@[simp] theorem State.updClu_queues (s : State) (c : Nat) (f : Clu → Clu) : (s.updClu c f).queues = s.queues := rfl
@[simp] theorem State.updClu_link (s : State) (c : Nat) (f : Clu → Clu) : (s.updClu c f).link = s.link := rfl
@[simp] theorem State.updClu_board (s : State) (c : Nat) (f : Clu → Clu) : (s.updClu c f).board = s.board := rfl
@[simp] theorem State.updClu_remaps (s : State) (c : Nat) (f : Clu → Clu) : (s.updClu c f).remaps = s.remaps := rfl
@[simp] theorem State.updClu_cycle (s : State) (c : Nat) (f : Clu → Clu) : (s.updClu c f).cycle = s.cycle := rfl
@[simp] theorem State.updClu_accId (s : State) (c : Nat) (f : Clu → Clu) : (s.updClu c f).accId = s.accId := rfl
@[simp] theorem State.updClu_fenceId (s : State) (c : Nat) (f : Clu → Clu) : (s.updClu c f).fenceId = s.fenceId := rfl
@[simp] theorem State.updClu_spares (s : State) (c : Nat) (f : Clu → Clu) : (s.updClu c f).spares = s.spares := rfl
@[simp] theorem State.updClu_fresh (s : State) (c : Nat) (f : Clu → Clu) : (s.updClu c f).fresh = s.fresh := rfl
@[simp] theorem State.updClu_focus (s : State) (c : Nat) (f : Clu → Clu) : (s.updClu c f).focus = s.focus := rfl
@[simp] theorem State.updClu_agenda (s : State) (c : Nat) (f : Clu → Clu) : (s.updClu c f).agenda = s.agenda := rfl

/-! ## State.updDie -/

@[simp] theorem State.updDie_cores (s : State) (d : Nat) (f : Die → Die) : (s.updDie d f).cores = s.cores := rfl
@[simp] theorem State.updDie_clus (s : State) (d : Nat) (f : Die → Die) : (s.updDie d f).clus = s.clus := rfl
@[simp] theorem State.updDie_comm (s : State) (d : Nat) (f : Die → Die) : (s.updDie d f).comm = s.comm := rfl
@[simp] theorem State.updDie_tasks (s : State) (d : Nat) (f : Die → Die) : (s.updDie d f).tasks = s.tasks := rfl
@[simp] theorem State.updDie_mem (s : State) (d : Nat) (f : Die → Die) : (s.updDie d f).mem = s.mem := rfl
@[simp] theorem State.updDie_l2 (s : State) (d : Nat) (f : Die → Die) : (s.updDie d f).l2 = s.l2 := rfl
@[simp] theorem State.updDie_homeRec (s : State) (d : Nat) (f : Die → Die) : (s.updDie d f).homeRec = s.homeRec := rfl
@[simp] theorem State.updDie_tags (s : State) (d : Nat) (f : Die → Die) : (s.updDie d f).tags = s.tags := rfl
@[simp] theorem State.updDie_releases (s : State) (d : Nat) (f : Die → Die) : (s.updDie d f).releases = s.releases := rfl
@[simp] theorem State.updDie_cacheOps (s : State) (d : Nat) (f : Die → Die) : (s.updDie d f).cacheOps = s.cacheOps := rfl
@[simp] theorem State.updDie_queues (s : State) (d : Nat) (f : Die → Die) : (s.updDie d f).queues = s.queues := rfl
@[simp] theorem State.updDie_link (s : State) (d : Nat) (f : Die → Die) : (s.updDie d f).link = s.link := rfl
@[simp] theorem State.updDie_board (s : State) (d : Nat) (f : Die → Die) : (s.updDie d f).board = s.board := rfl
@[simp] theorem State.updDie_remaps (s : State) (d : Nat) (f : Die → Die) : (s.updDie d f).remaps = s.remaps := rfl
@[simp] theorem State.updDie_cycle (s : State) (d : Nat) (f : Die → Die) : (s.updDie d f).cycle = s.cycle := rfl
@[simp] theorem State.updDie_accId (s : State) (d : Nat) (f : Die → Die) : (s.updDie d f).accId = s.accId := rfl
@[simp] theorem State.updDie_fenceId (s : State) (d : Nat) (f : Die → Die) : (s.updDie d f).fenceId = s.fenceId := rfl
@[simp] theorem State.updDie_spares (s : State) (d : Nat) (f : Die → Die) : (s.updDie d f).spares = s.spares := rfl
@[simp] theorem State.updDie_fresh (s : State) (d : Nat) (f : Die → Die) : (s.updDie d f).fresh = s.fresh := rfl
@[simp] theorem State.updDie_focus (s : State) (d : Nat) (f : Die → Die) : (s.updDie d f).focus = s.focus := rfl
@[simp] theorem State.updDie_agenda (s : State) (d : Nat) (f : Die → Die) : (s.updDie d f).agenda = s.agenda := rfl

/-! ## State.updTx -/

@[simp] theorem State.updTx_cores (s : State) (d : Nat) (f : Transport → Transport) : (s.updTx d f).cores = s.cores := rfl
@[simp] theorem State.updTx_clus (s : State) (d : Nat) (f : Transport → Transport) : (s.updTx d f).clus = s.clus := rfl
@[simp] theorem State.updTx_comm (s : State) (d : Nat) (f : Transport → Transport) : (s.updTx d f).comm = s.comm := rfl
@[simp] theorem State.updTx_tasks (s : State) (d : Nat) (f : Transport → Transport) : (s.updTx d f).tasks = s.tasks := rfl
@[simp] theorem State.updTx_mem (s : State) (d : Nat) (f : Transport → Transport) : (s.updTx d f).mem = s.mem := rfl
@[simp] theorem State.updTx_l2 (s : State) (d : Nat) (f : Transport → Transport) : (s.updTx d f).l2 = s.l2 := rfl
@[simp] theorem State.updTx_homeRec (s : State) (d : Nat) (f : Transport → Transport) : (s.updTx d f).homeRec = s.homeRec := rfl
@[simp] theorem State.updTx_tags (s : State) (d : Nat) (f : Transport → Transport) : (s.updTx d f).tags = s.tags := rfl
@[simp] theorem State.updTx_releases (s : State) (d : Nat) (f : Transport → Transport) : (s.updTx d f).releases = s.releases := rfl
@[simp] theorem State.updTx_cacheOps (s : State) (d : Nat) (f : Transport → Transport) : (s.updTx d f).cacheOps = s.cacheOps := rfl
@[simp] theorem State.updTx_queues (s : State) (d : Nat) (f : Transport → Transport) : (s.updTx d f).queues = s.queues := rfl
@[simp] theorem State.updTx_link (s : State) (d : Nat) (f : Transport → Transport) : (s.updTx d f).link = s.link := rfl
@[simp] theorem State.updTx_board (s : State) (d : Nat) (f : Transport → Transport) : (s.updTx d f).board = s.board := rfl
@[simp] theorem State.updTx_remaps (s : State) (d : Nat) (f : Transport → Transport) : (s.updTx d f).remaps = s.remaps := rfl
@[simp] theorem State.updTx_cycle (s : State) (d : Nat) (f : Transport → Transport) : (s.updTx d f).cycle = s.cycle := rfl
@[simp] theorem State.updTx_accId (s : State) (d : Nat) (f : Transport → Transport) : (s.updTx d f).accId = s.accId := rfl
@[simp] theorem State.updTx_fenceId (s : State) (d : Nat) (f : Transport → Transport) : (s.updTx d f).fenceId = s.fenceId := rfl
@[simp] theorem State.updTx_spares (s : State) (d : Nat) (f : Transport → Transport) : (s.updTx d f).spares = s.spares := rfl
@[simp] theorem State.updTx_fresh (s : State) (d : Nat) (f : Transport → Transport) : (s.updTx d f).fresh = s.fresh := rfl
@[simp] theorem State.updTx_focus (s : State) (d : Nat) (f : Transport → Transport) : (s.updTx d f).focus = s.focus := rfl
@[simp] theorem State.updTx_agenda (s : State) (d : Nat) (f : Transport → Transport) : (s.updTx d f).agenda = s.agenda := rfl

/-! ## State.updTc -/

@[simp] theorem State.updTc_cores (s : State) (d : Nat) (f : Tc → Tc) : (s.updTc d f).cores = s.cores := rfl
@[simp] theorem State.updTc_clus (s : State) (d : Nat) (f : Tc → Tc) : (s.updTc d f).clus = s.clus := rfl
@[simp] theorem State.updTc_comm (s : State) (d : Nat) (f : Tc → Tc) : (s.updTc d f).comm = s.comm := rfl
@[simp] theorem State.updTc_tasks (s : State) (d : Nat) (f : Tc → Tc) : (s.updTc d f).tasks = s.tasks := rfl
@[simp] theorem State.updTc_mem (s : State) (d : Nat) (f : Tc → Tc) : (s.updTc d f).mem = s.mem := rfl
@[simp] theorem State.updTc_l2 (s : State) (d : Nat) (f : Tc → Tc) : (s.updTc d f).l2 = s.l2 := rfl
@[simp] theorem State.updTc_homeRec (s : State) (d : Nat) (f : Tc → Tc) : (s.updTc d f).homeRec = s.homeRec := rfl
@[simp] theorem State.updTc_tags (s : State) (d : Nat) (f : Tc → Tc) : (s.updTc d f).tags = s.tags := rfl
@[simp] theorem State.updTc_releases (s : State) (d : Nat) (f : Tc → Tc) : (s.updTc d f).releases = s.releases := rfl
@[simp] theorem State.updTc_cacheOps (s : State) (d : Nat) (f : Tc → Tc) : (s.updTc d f).cacheOps = s.cacheOps := rfl
@[simp] theorem State.updTc_queues (s : State) (d : Nat) (f : Tc → Tc) : (s.updTc d f).queues = s.queues := rfl
@[simp] theorem State.updTc_link (s : State) (d : Nat) (f : Tc → Tc) : (s.updTc d f).link = s.link := rfl
@[simp] theorem State.updTc_board (s : State) (d : Nat) (f : Tc → Tc) : (s.updTc d f).board = s.board := rfl
@[simp] theorem State.updTc_remaps (s : State) (d : Nat) (f : Tc → Tc) : (s.updTc d f).remaps = s.remaps := rfl
@[simp] theorem State.updTc_cycle (s : State) (d : Nat) (f : Tc → Tc) : (s.updTc d f).cycle = s.cycle := rfl
@[simp] theorem State.updTc_accId (s : State) (d : Nat) (f : Tc → Tc) : (s.updTc d f).accId = s.accId := rfl
@[simp] theorem State.updTc_fenceId (s : State) (d : Nat) (f : Tc → Tc) : (s.updTc d f).fenceId = s.fenceId := rfl
@[simp] theorem State.updTc_spares (s : State) (d : Nat) (f : Tc → Tc) : (s.updTc d f).spares = s.spares := rfl
@[simp] theorem State.updTc_fresh (s : State) (d : Nat) (f : Tc → Tc) : (s.updTc d f).fresh = s.fresh := rfl
@[simp] theorem State.updTc_focus (s : State) (d : Nat) (f : Tc → Tc) : (s.updTc d f).focus = s.focus := rfl
@[simp] theorem State.updTc_agenda (s : State) (d : Nat) (f : Tc → Tc) : (s.updTc d f).agenda = s.agenda := rfl

/-! ## State.updComm -/

@[simp] theorem State.updComm_cores (s : State) (a : Nat) (f : Comm → Comm) : (s.updComm a f).cores = s.cores := rfl
@[simp] theorem State.updComm_clus (s : State) (a : Nat) (f : Comm → Comm) : (s.updComm a f).clus = s.clus := rfl
@[simp] theorem State.updComm_dies (s : State) (a : Nat) (f : Comm → Comm) : (s.updComm a f).dies = s.dies := rfl
@[simp] theorem State.updComm_tasks (s : State) (a : Nat) (f : Comm → Comm) : (s.updComm a f).tasks = s.tasks := rfl
@[simp] theorem State.updComm_mem (s : State) (a : Nat) (f : Comm → Comm) : (s.updComm a f).mem = s.mem := rfl
@[simp] theorem State.updComm_l2 (s : State) (a : Nat) (f : Comm → Comm) : (s.updComm a f).l2 = s.l2 := rfl
@[simp] theorem State.updComm_homeRec (s : State) (a : Nat) (f : Comm → Comm) : (s.updComm a f).homeRec = s.homeRec := rfl
@[simp] theorem State.updComm_tags (s : State) (a : Nat) (f : Comm → Comm) : (s.updComm a f).tags = s.tags := rfl
@[simp] theorem State.updComm_releases (s : State) (a : Nat) (f : Comm → Comm) : (s.updComm a f).releases = s.releases := rfl
@[simp] theorem State.updComm_cacheOps (s : State) (a : Nat) (f : Comm → Comm) : (s.updComm a f).cacheOps = s.cacheOps := rfl
@[simp] theorem State.updComm_queues (s : State) (a : Nat) (f : Comm → Comm) : (s.updComm a f).queues = s.queues := rfl
@[simp] theorem State.updComm_link (s : State) (a : Nat) (f : Comm → Comm) : (s.updComm a f).link = s.link := rfl
@[simp] theorem State.updComm_board (s : State) (a : Nat) (f : Comm → Comm) : (s.updComm a f).board = s.board := rfl
@[simp] theorem State.updComm_remaps (s : State) (a : Nat) (f : Comm → Comm) : (s.updComm a f).remaps = s.remaps := rfl
@[simp] theorem State.updComm_cycle (s : State) (a : Nat) (f : Comm → Comm) : (s.updComm a f).cycle = s.cycle := rfl
@[simp] theorem State.updComm_accId (s : State) (a : Nat) (f : Comm → Comm) : (s.updComm a f).accId = s.accId := rfl
@[simp] theorem State.updComm_fenceId (s : State) (a : Nat) (f : Comm → Comm) : (s.updComm a f).fenceId = s.fenceId := rfl
@[simp] theorem State.updComm_spares (s : State) (a : Nat) (f : Comm → Comm) : (s.updComm a f).spares = s.spares := rfl
@[simp] theorem State.updComm_fresh (s : State) (a : Nat) (f : Comm → Comm) : (s.updComm a f).fresh = s.fresh := rfl
@[simp] theorem State.updComm_focus (s : State) (a : Nat) (f : Comm → Comm) : (s.updComm a f).focus = s.focus := rfl
@[simp] theorem State.updComm_agenda (s : State) (a : Nat) (f : Comm → Comm) : (s.updComm a f).agenda = s.agenda := rfl

/-! ## State.updTask -/

@[simp] theorem State.updTask_cores (s : State) (t : Nat) (f : Task → Task) : (s.updTask t f).cores = s.cores := by unfold State.updTask; split <;> rfl
@[simp] theorem State.updTask_clus (s : State) (t : Nat) (f : Task → Task) : (s.updTask t f).clus = s.clus := by unfold State.updTask; split <;> rfl
@[simp] theorem State.updTask_dies (s : State) (t : Nat) (f : Task → Task) : (s.updTask t f).dies = s.dies := by unfold State.updTask; split <;> rfl
@[simp] theorem State.updTask_comm (s : State) (t : Nat) (f : Task → Task) : (s.updTask t f).comm = s.comm := by unfold State.updTask; split <;> rfl
@[simp] theorem State.updTask_mem (s : State) (t : Nat) (f : Task → Task) : (s.updTask t f).mem = s.mem := by unfold State.updTask; split <;> rfl
@[simp] theorem State.updTask_l2 (s : State) (t : Nat) (f : Task → Task) : (s.updTask t f).l2 = s.l2 := by unfold State.updTask; split <;> rfl
@[simp] theorem State.updTask_homeRec (s : State) (t : Nat) (f : Task → Task) : (s.updTask t f).homeRec = s.homeRec := by unfold State.updTask; split <;> rfl
@[simp] theorem State.updTask_tags (s : State) (t : Nat) (f : Task → Task) : (s.updTask t f).tags = s.tags := by unfold State.updTask; split <;> rfl
@[simp] theorem State.updTask_releases (s : State) (t : Nat) (f : Task → Task) : (s.updTask t f).releases = s.releases := by unfold State.updTask; split <;> rfl
@[simp] theorem State.updTask_cacheOps (s : State) (t : Nat) (f : Task → Task) : (s.updTask t f).cacheOps = s.cacheOps := by unfold State.updTask; split <;> rfl
@[simp] theorem State.updTask_queues (s : State) (t : Nat) (f : Task → Task) : (s.updTask t f).queues = s.queues := by unfold State.updTask; split <;> rfl
@[simp] theorem State.updTask_link (s : State) (t : Nat) (f : Task → Task) : (s.updTask t f).link = s.link := by unfold State.updTask; split <;> rfl
@[simp] theorem State.updTask_board (s : State) (t : Nat) (f : Task → Task) : (s.updTask t f).board = s.board := by unfold State.updTask; split <;> rfl
@[simp] theorem State.updTask_remaps (s : State) (t : Nat) (f : Task → Task) : (s.updTask t f).remaps = s.remaps := by unfold State.updTask; split <;> rfl
@[simp] theorem State.updTask_cycle (s : State) (t : Nat) (f : Task → Task) : (s.updTask t f).cycle = s.cycle := by unfold State.updTask; split <;> rfl
@[simp] theorem State.updTask_accId (s : State) (t : Nat) (f : Task → Task) : (s.updTask t f).accId = s.accId := by unfold State.updTask; split <;> rfl
@[simp] theorem State.updTask_fenceId (s : State) (t : Nat) (f : Task → Task) : (s.updTask t f).fenceId = s.fenceId := by unfold State.updTask; split <;> rfl
@[simp] theorem State.updTask_spares (s : State) (t : Nat) (f : Task → Task) : (s.updTask t f).spares = s.spares := by unfold State.updTask; split <;> rfl
@[simp] theorem State.updTask_fresh (s : State) (t : Nat) (f : Task → Task) : (s.updTask t f).fresh = s.fresh := by unfold State.updTask; split <;> rfl
@[simp] theorem State.updTask_focus (s : State) (t : Nat) (f : Task → Task) : (s.updTask t f).focus = s.focus := by unfold State.updTask; split <;> rfl
@[simp] theorem State.updTask_agenda (s : State) (t : Nat) (f : Task → Task) : (s.updTask t f).agenda = s.agenda := by unfold State.updTask; split <;> rfl

/-! ## State.post -/

@[simp] theorem State.post_clus (s : State) (w : At) (r : Rec) : (s.post w r).clus = s.clus := rfl
@[simp] theorem State.post_dies (s : State) (w : At) (r : Rec) : (s.post w r).dies = s.dies := rfl
@[simp] theorem State.post_comm (s : State) (w : At) (r : Rec) : (s.post w r).comm = s.comm := rfl
@[simp] theorem State.post_tasks (s : State) (w : At) (r : Rec) : (s.post w r).tasks = s.tasks := rfl
@[simp] theorem State.post_mem (s : State) (w : At) (r : Rec) : (s.post w r).mem = s.mem := rfl
@[simp] theorem State.post_l2 (s : State) (w : At) (r : Rec) : (s.post w r).l2 = s.l2 := rfl
@[simp] theorem State.post_homeRec (s : State) (w : At) (r : Rec) : (s.post w r).homeRec = s.homeRec := rfl
@[simp] theorem State.post_tags (s : State) (w : At) (r : Rec) : (s.post w r).tags = s.tags := rfl
@[simp] theorem State.post_releases (s : State) (w : At) (r : Rec) : (s.post w r).releases = s.releases := rfl
@[simp] theorem State.post_cacheOps (s : State) (w : At) (r : Rec) : (s.post w r).cacheOps = s.cacheOps := rfl
@[simp] theorem State.post_queues (s : State) (w : At) (r : Rec) : (s.post w r).queues = s.queues := rfl
@[simp] theorem State.post_link (s : State) (w : At) (r : Rec) : (s.post w r).link = s.link := rfl
@[simp] theorem State.post_board (s : State) (w : At) (r : Rec) : (s.post w r).board = s.board := rfl
@[simp] theorem State.post_remaps (s : State) (w : At) (r : Rec) : (s.post w r).remaps = s.remaps := rfl
@[simp] theorem State.post_cycle (s : State) (w : At) (r : Rec) : (s.post w r).cycle = s.cycle := rfl
@[simp] theorem State.post_accId (s : State) (w : At) (r : Rec) : (s.post w r).accId = s.accId := rfl
@[simp] theorem State.post_fenceId (s : State) (w : At) (r : Rec) : (s.post w r).fenceId = s.fenceId := rfl
@[simp] theorem State.post_spares (s : State) (w : At) (r : Rec) : (s.post w r).spares = s.spares := rfl
@[simp] theorem State.post_fresh (s : State) (w : At) (r : Rec) : (s.post w r).fresh = s.fresh := rfl
@[simp] theorem State.post_focus (s : State) (w : At) (r : Rec) : (s.post w r).focus = s.focus := rfl
@[simp] theorem State.post_agenda (s : State) (w : At) (r : Rec) : (s.post w r).agenda = s.agenda := rfl

/-! ## State.mail -/

@[simp] theorem State.mail_cores (s : State) (d k : Nat) (ws : List W64) : (s.mail d k ws).cores = s.cores := rfl
@[simp] theorem State.mail_clus (s : State) (d k : Nat) (ws : List W64) : (s.mail d k ws).clus = s.clus := rfl
@[simp] theorem State.mail_comm (s : State) (d k : Nat) (ws : List W64) : (s.mail d k ws).comm = s.comm := rfl
@[simp] theorem State.mail_tasks (s : State) (d k : Nat) (ws : List W64) : (s.mail d k ws).tasks = s.tasks := rfl
@[simp] theorem State.mail_mem (s : State) (d k : Nat) (ws : List W64) : (s.mail d k ws).mem = s.mem := rfl
@[simp] theorem State.mail_l2 (s : State) (d k : Nat) (ws : List W64) : (s.mail d k ws).l2 = s.l2 := rfl
@[simp] theorem State.mail_homeRec (s : State) (d k : Nat) (ws : List W64) : (s.mail d k ws).homeRec = s.homeRec := rfl
@[simp] theorem State.mail_tags (s : State) (d k : Nat) (ws : List W64) : (s.mail d k ws).tags = s.tags := rfl
@[simp] theorem State.mail_releases (s : State) (d k : Nat) (ws : List W64) : (s.mail d k ws).releases = s.releases := rfl
@[simp] theorem State.mail_cacheOps (s : State) (d k : Nat) (ws : List W64) : (s.mail d k ws).cacheOps = s.cacheOps := rfl
@[simp] theorem State.mail_queues (s : State) (d k : Nat) (ws : List W64) : (s.mail d k ws).queues = s.queues := rfl
@[simp] theorem State.mail_link (s : State) (d k : Nat) (ws : List W64) : (s.mail d k ws).link = s.link := rfl
@[simp] theorem State.mail_board (s : State) (d k : Nat) (ws : List W64) : (s.mail d k ws).board = s.board := rfl
@[simp] theorem State.mail_remaps (s : State) (d k : Nat) (ws : List W64) : (s.mail d k ws).remaps = s.remaps := rfl
@[simp] theorem State.mail_cycle (s : State) (d k : Nat) (ws : List W64) : (s.mail d k ws).cycle = s.cycle := rfl
@[simp] theorem State.mail_accId (s : State) (d k : Nat) (ws : List W64) : (s.mail d k ws).accId = s.accId := rfl
@[simp] theorem State.mail_fenceId (s : State) (d k : Nat) (ws : List W64) : (s.mail d k ws).fenceId = s.fenceId := rfl
@[simp] theorem State.mail_spares (s : State) (d k : Nat) (ws : List W64) : (s.mail d k ws).spares = s.spares := rfl
@[simp] theorem State.mail_fresh (s : State) (d k : Nat) (ws : List W64) : (s.mail d k ws).fresh = s.fresh := rfl
@[simp] theorem State.mail_focus (s : State) (d k : Nat) (ws : List W64) : (s.mail d k ws).focus = s.focus := rfl
@[simp] theorem State.mail_agenda (s : State) (d k : Nat) (ws : List W64) : (s.mail d k ws).agenda = s.agenda := rfl

/-! ## State.pageRequest -/

@[simp] theorem State.pageRequest_cores (s : State) (d a : Nat) (va : W64) (k : Nat) : (s.pageRequest d a va k).cores = s.cores := rfl
@[simp] theorem State.pageRequest_clus (s : State) (d a : Nat) (va : W64) (k : Nat) : (s.pageRequest d a va k).clus = s.clus := rfl
@[simp] theorem State.pageRequest_comm (s : State) (d a : Nat) (va : W64) (k : Nat) : (s.pageRequest d a va k).comm = s.comm := rfl
@[simp] theorem State.pageRequest_tasks (s : State) (d a : Nat) (va : W64) (k : Nat) : (s.pageRequest d a va k).tasks = s.tasks := rfl
@[simp] theorem State.pageRequest_mem (s : State) (d a : Nat) (va : W64) (k : Nat) : (s.pageRequest d a va k).mem = s.mem := rfl
@[simp] theorem State.pageRequest_l2 (s : State) (d a : Nat) (va : W64) (k : Nat) : (s.pageRequest d a va k).l2 = s.l2 := rfl
@[simp] theorem State.pageRequest_homeRec (s : State) (d a : Nat) (va : W64) (k : Nat) : (s.pageRequest d a va k).homeRec = s.homeRec := rfl
@[simp] theorem State.pageRequest_tags (s : State) (d a : Nat) (va : W64) (k : Nat) : (s.pageRequest d a va k).tags = s.tags := rfl
@[simp] theorem State.pageRequest_releases (s : State) (d a : Nat) (va : W64) (k : Nat) : (s.pageRequest d a va k).releases = s.releases := rfl
@[simp] theorem State.pageRequest_cacheOps (s : State) (d a : Nat) (va : W64) (k : Nat) : (s.pageRequest d a va k).cacheOps = s.cacheOps := rfl
@[simp] theorem State.pageRequest_queues (s : State) (d a : Nat) (va : W64) (k : Nat) : (s.pageRequest d a va k).queues = s.queues := rfl
@[simp] theorem State.pageRequest_link (s : State) (d a : Nat) (va : W64) (k : Nat) : (s.pageRequest d a va k).link = s.link := rfl
@[simp] theorem State.pageRequest_board (s : State) (d a : Nat) (va : W64) (k : Nat) : (s.pageRequest d a va k).board = s.board := rfl
@[simp] theorem State.pageRequest_remaps (s : State) (d a : Nat) (va : W64) (k : Nat) : (s.pageRequest d a va k).remaps = s.remaps := rfl
@[simp] theorem State.pageRequest_cycle (s : State) (d a : Nat) (va : W64) (k : Nat) : (s.pageRequest d a va k).cycle = s.cycle := rfl
@[simp] theorem State.pageRequest_accId (s : State) (d a : Nat) (va : W64) (k : Nat) : (s.pageRequest d a va k).accId = s.accId := rfl
@[simp] theorem State.pageRequest_fenceId (s : State) (d a : Nat) (va : W64) (k : Nat) : (s.pageRequest d a va k).fenceId = s.fenceId := rfl
@[simp] theorem State.pageRequest_spares (s : State) (d a : Nat) (va : W64) (k : Nat) : (s.pageRequest d a va k).spares = s.spares := rfl
@[simp] theorem State.pageRequest_fresh (s : State) (d a : Nat) (va : W64) (k : Nat) : (s.pageRequest d a va k).fresh = s.fresh := rfl
@[simp] theorem State.pageRequest_focus (s : State) (d a : Nat) (va : W64) (k : Nat) : (s.pageRequest d a va k).focus = s.focus := rfl
@[simp] theorem State.pageRequest_agenda (s : State) (d a : Nat) (va : W64) (k : Nat) : (s.pageRequest d a va k).agenda = s.agenda := rfl

/-! ## State.landed -/

@[simp] theorem State.landed_clus (s : State) (w : At) : (s.landed w).clus = s.clus := rfl
@[simp] theorem State.landed_dies (s : State) (w : At) : (s.landed w).dies = s.dies := rfl
@[simp] theorem State.landed_comm (s : State) (w : At) : (s.landed w).comm = s.comm := rfl
@[simp] theorem State.landed_tasks (s : State) (w : At) : (s.landed w).tasks = s.tasks := rfl
@[simp] theorem State.landed_mem (s : State) (w : At) : (s.landed w).mem = s.mem := rfl
@[simp] theorem State.landed_l2 (s : State) (w : At) : (s.landed w).l2 = s.l2 := rfl
@[simp] theorem State.landed_homeRec (s : State) (w : At) : (s.landed w).homeRec = s.homeRec := rfl
@[simp] theorem State.landed_tags (s : State) (w : At) : (s.landed w).tags = s.tags := rfl
@[simp] theorem State.landed_releases (s : State) (w : At) : (s.landed w).releases = s.releases := rfl
@[simp] theorem State.landed_cacheOps (s : State) (w : At) : (s.landed w).cacheOps = s.cacheOps := rfl
@[simp] theorem State.landed_queues (s : State) (w : At) : (s.landed w).queues = s.queues := rfl
@[simp] theorem State.landed_link (s : State) (w : At) : (s.landed w).link = s.link := rfl
@[simp] theorem State.landed_board (s : State) (w : At) : (s.landed w).board = s.board := rfl
@[simp] theorem State.landed_remaps (s : State) (w : At) : (s.landed w).remaps = s.remaps := rfl
@[simp] theorem State.landed_cycle (s : State) (w : At) : (s.landed w).cycle = s.cycle := rfl
@[simp] theorem State.landed_accId (s : State) (w : At) : (s.landed w).accId = s.accId := rfl
@[simp] theorem State.landed_fenceId (s : State) (w : At) : (s.landed w).fenceId = s.fenceId := rfl
@[simp] theorem State.landed_spares (s : State) (w : At) : (s.landed w).spares = s.spares := rfl
@[simp] theorem State.landed_fresh (s : State) (w : At) : (s.landed w).fresh = s.fresh := rfl
@[simp] theorem State.landed_focus (s : State) (w : At) : (s.landed w).focus = s.focus := rfl
@[simp] theorem State.landed_agenda (s : State) (w : At) : (s.landed w).agenda = s.agenda := rfl

@[simp] theorem State.core_updClu (s : State) (c : Nat) (f : Clu → Clu) (k : Nat) : (s.updClu c f).core k = s.core k := rfl
@[simp] theorem State.ctx_updClu (s : State) (c : Nat) (f : Clu → Clu) (w : At) : (s.updClu c f).ctx w = s.ctx w := rfl
@[simp] theorem State.core_updDie (s : State) (c : Nat) (f : Die → Die) (k : Nat) : (s.updDie c f).core k = s.core k := rfl
@[simp] theorem State.ctx_updDie (s : State) (c : Nat) (f : Die → Die) (w : At) : (s.updDie c f).ctx w = s.ctx w := rfl
@[simp] theorem State.core_updTx (s : State) (c : Nat) (f : Transport → Transport) (k : Nat) : (s.updTx c f).core k = s.core k := rfl
@[simp] theorem State.ctx_updTx (s : State) (c : Nat) (f : Transport → Transport) (w : At) : (s.updTx c f).ctx w = s.ctx w := rfl
@[simp] theorem State.core_updTc (s : State) (c : Nat) (f : Tc → Tc) (k : Nat) : (s.updTc c f).core k = s.core k := rfl
@[simp] theorem State.ctx_updTc (s : State) (c : Nat) (f : Tc → Tc) (w : At) : (s.updTc c f).ctx w = s.ctx w := rfl
@[simp] theorem State.core_updComm (s : State) (c : Nat) (f : Comm → Comm) (k : Nat) : (s.updComm c f).core k = s.core k := rfl
@[simp] theorem State.ctx_updComm (s : State) (c : Nat) (f : Comm → Comm) (w : At) : (s.updComm c f).ctx w = s.ctx w := rfl
@[simp] theorem State.core_mail (s : State) (c m : Nat) (ws : List W64) (k : Nat) : (s.mail c m ws).core k = s.core k := rfl
@[simp] theorem State.ctx_mail (s : State) (c k : Nat) (ws : List W64) (w : At) : (s.mail c k ws).ctx w = s.ctx w := rfl
@[simp] theorem State.die_updCore (s : State) (c : Nat) (f : Core → Core) (k : Nat) : (s.updCore c f).die k = s.die k := rfl
@[simp] theorem State.die_updCtx (s : State) (w : At) (f : Ctx → Ctx) (k : Nat) : (s.updCtx w f).die k = s.die k := rfl
@[simp] theorem State.die_updRegs (s : State) (w : At) (f : Regs → Regs) (k : Nat) : (s.updRegs w f).die k = s.die k := rfl
@[simp] theorem State.die_updSys (s : State) (w : At) (f : Sys → Sys) (k : Nat) : (s.updSys w f).die k = s.die k := rfl
@[simp] theorem State.die_updEng (s : State) (w : At) (f : Eng → Eng) (k : Nat) : (s.updEng w f).die k = s.die k := rfl
@[simp] theorem State.die_updPipe (s : State) (w : At) (f : Pipe → Pipe) (k : Nat) : (s.updPipe w f).die k = s.die k := rfl
@[simp] theorem State.die_updSched (s : State) (w : At) (f : Sched → Sched) (k : Nat) : (s.updSched w f).die k = s.die k := rfl
@[simp] theorem State.die_post (s : State) (w : At) (r : Rec) (k : Nat) : (s.post w r).die k = s.die k := rfl
@[simp] theorem State.clu_updCore (s : State) (c : Nat) (f : Core → Core) (k : Nat) : (s.updCore c f).clu k = s.clu k := rfl
@[simp] theorem State.clu_updCtx (s : State) (w : At) (f : Ctx → Ctx) (k : Nat) : (s.updCtx w f).clu k = s.clu k := rfl
@[simp] theorem State.clu_updRegs (s : State) (w : At) (f : Regs → Regs) (k : Nat) : (s.updRegs w f).clu k = s.clu k := rfl
@[simp] theorem State.clu_updSys (s : State) (w : At) (f : Sys → Sys) (k : Nat) : (s.updSys w f).clu k = s.clu k := rfl
@[simp] theorem State.clu_updEng (s : State) (w : At) (f : Eng → Eng) (k : Nat) : (s.updEng w f).clu k = s.clu k := rfl
@[simp] theorem State.clu_updPipe (s : State) (w : At) (f : Pipe → Pipe) (k : Nat) : (s.updPipe w f).clu k = s.clu k := rfl
@[simp] theorem State.clu_updSched (s : State) (w : At) (f : Sched → Sched) (k : Nat) : (s.updSched w f).clu k = s.clu k := rfl
@[simp] theorem State.clu_post (s : State) (w : At) (r : Rec) (k : Nat) : (s.post w r).clu k = s.clu k := rfl
@[simp] theorem State.commOf_updCore (s : State) (c : Nat) (f : Core → Core) (k : Nat) : (s.updCore c f).commOf k = s.commOf k := rfl
@[simp] theorem State.commOf_updCtx (s : State) (w : At) (f : Ctx → Ctx) (k : Nat) : (s.updCtx w f).commOf k = s.commOf k := rfl
@[simp] theorem State.commOf_updRegs (s : State) (w : At) (f : Regs → Regs) (k : Nat) : (s.updRegs w f).commOf k = s.commOf k := rfl
@[simp] theorem State.commOf_updSys (s : State) (w : At) (f : Sys → Sys) (k : Nat) : (s.updSys w f).commOf k = s.commOf k := rfl
@[simp] theorem State.commOf_updEng (s : State) (w : At) (f : Eng → Eng) (k : Nat) : (s.updEng w f).commOf k = s.commOf k := rfl
@[simp] theorem State.commOf_updPipe (s : State) (w : At) (f : Pipe → Pipe) (k : Nat) : (s.updPipe w f).commOf k = s.commOf k := rfl
@[simp] theorem State.commOf_updSched (s : State) (w : At) (f : Sched → Sched) (k : Nat) : (s.updSched w f).commOf k = s.commOf k := rfl
@[simp] theorem State.commOf_post (s : State) (w : At) (r : Rec) (k : Nat) : (s.post w r).commOf k = s.commOf k := rfl

end Sys2Proof.Machine
end

