-- ==== Sys2Proof/Laws/Tables.lean ====
section
/-! SUPPORT. The laws of tables and of memory: reading after writing, and the canonical form that every memory operation keeps. -/

namespace Sys2Proof.Machine

/-! ## Tables -/

@[simp] theorem tget?_nil {α : Type} (n : Nat) : tget? ([] : Tab α) n = none := rfl

@[simp] theorem tget_nil {α : Type} (d : α) (n : Nat) : tget d ([] : Tab α) n = d := rfl

@[simp] theorem tget?_tset_self {α : Type} (t : Tab α) (n : Nat) (a : α) : tget? (tset t n a) n = some a := by
  induction t with
  | nil => simp [tset, tget?]
  | cons p t ih =>
    obtain ⟨k, v⟩ := p
    unfold tset
    split
    · simp [tget?]
    · split
      · simp [tget?]
      · simp only [tget?]
        rw [if_neg (by omega), ih]

theorem tget?_tset_ne {α : Type} (t : Tab α) {n m : Nat} (a : α) (h : n ≠ m) : tget? (tset t n a) m = tget? t m := by
  induction t with
  | nil => simp [tset, tget?, h]
  | cons p t ih =>
    obtain ⟨k, v⟩ := p
    unfold tset
    split
    · simp only [tget?]
      rw [if_neg h]
    · split
      · subst k
        simp [tget?, h]
      · simp only [tget?, ih]

@[simp] theorem tget_tset_self {α : Type} (d : α) (t : Tab α) (n : Nat) (a : α) : tget d (tset t n a) n = a := by
  simp [tget]

theorem tget_tset_ne {α : Type} (d : α) (t : Tab α) {n m : Nat} (a : α) (h : n ≠ m) :
    tget d (tset t n a) m = tget d t m := by
  simp [tget, tget?_tset_ne t a h]

/-- Writing twice is writing once. -/
@[simp] theorem tset_tset {α : Type} (t : Tab α) (n : Nat) (a b : α) : tset (tset t n a) n b = tset t n b := by
  induction t with
  | nil => simp [tset]
  | cons p t ih =>
    obtain ⟨k, v⟩ := p
    rcases Nat.lt_trichotomy n k with h | h | h
    · simp [tset, h]
    · simp [tset, h]
    · have h1 : ¬ n < k := by omega
      have h2 : n ≠ k := by omega
      simp [tset, h1, h2, ih]

@[simp] theorem tget?_tdel_self {α : Type} (t : Tab α) (n : Nat) : tget? (tdel t n) n = none := by
  induction t with
  | nil => rfl
  | cons p t ih =>
    obtain ⟨k, v⟩ := p
    simp only [tdel, List.filter_cons] at ih ⊢
    by_cases h : k = n
    · simp [h, ih]
    · simp [h, tget?, ih]

theorem tget?_tdel_ne {α : Type} (t : Tab α) {n m : Nat} (h : n ≠ m) : tget? (tdel t n) m = tget? t m := by
  induction t with
  | nil => rfl
  | cons p t ih =>
    obtain ⟨k, v⟩ := p
    simp only [tdel, List.filter_cons] at ih ⊢
    by_cases hk : k = n
    · subst k
      simp [tget?, h, ih]
    · simp [hk, tget?, ih]

/-- An entry of a table after a write is the written one or an old one. -/
theorem mem_tset {α : Type} {t : Tab α} {n : Nat} {a : α} {p : Nat × α} (h : p ∈ tset t n a) : p = (n, a) ∨ p ∈ t := by
  induction t with
  | nil => simpa [tset] using h
  | cons q t ih =>
    obtain ⟨k, v⟩ := q
    unfold tset at h
    split at h
    · simpa using h
    · split at h
      · rcases List.mem_cons.1 h with h | h
        · exact .inl h
        · exact .inr (List.mem_cons_of_mem _ h)
      · rcases List.mem_cons.1 h with h | h
        · exact .inr (by simp [h])
        · rcases ih h with h | h
          · exact .inl h
          · exact .inr (List.mem_cons_of_mem _ h)

/-- A listed entry is an entry of the table. -/
theorem mem_of_tget? {α : Type} {t : Tab α} {n : Nat} {a : α} (h : tget? t n = some a) : (n, a) ∈ t := by
  induction t with
  | nil => simp at h
  | cons q t ih =>
    obtain ⟨k, v⟩ := q
    simp only [tget?] at h
    split at h
    · simp_all
    · exact List.mem_cons_of_mem _ (ih h)

/-- The entry that `tget` gives is listed or is the default. -/
theorem tget_mem_or {α : Type} (d : α) (t : Tab α) (n : Nat) : (n, tget d t n) ∈ t ∨ tget d t n = d := by
  unfold tget
  cases h : tget? t n with
  | none => exact .inr rfl
  | some a => exact .inl (mem_of_tget? h)

/-! ## Strictly rising tables -/

/-- A write keeps the keys strictly rising. -/
theorem pairwise_tset {α : Type} {t : Tab α} (n : Nat) (a : α) (h : t.Pairwise fun p q => p.1 < q.1) :
    (tset t n a).Pairwise fun p q => p.1 < q.1 := by
  induction t with
  | nil => simp [tset]
  | cons q t ih =>
    obtain ⟨k, v⟩ := q
    rw [List.pairwise_cons] at h
    unfold tset
    split
    · rename_i hn
      rw [List.pairwise_cons]
      refine ⟨?_, List.pairwise_cons.2 h⟩
      intro p hp
      rcases List.mem_cons.1 hp with hp | hp
      · subst hp; exact hn
      · exact Nat.lt_trans hn (h.1 p hp)
    · split
      · subst k
        exact List.pairwise_cons.2 ⟨h.1, h.2⟩
      · rw [List.pairwise_cons]
        refine ⟨?_, ih h.2⟩
        intro p hp
        rcases mem_tset hp with hp | hp
        · subst hp; simp only; omega
        · exact h.1 p hp

/-- A removal keeps the keys strictly rising. -/
theorem pairwise_tdel {α : Type} {t : Tab α} (n : Nat) (h : t.Pairwise fun p q => p.1 < q.1) :
    (tdel t n).Pairwise fun p q => p.1 < q.1 := h.filter _

/-! ## Memory -/

/-- The empty memory is canonical. -/
@[simp] theorem Memory.wf_nil : Memory.wf [] := by simp [Memory.wf]

/-- A part of a canonical memory is canonical. -/
theorem Memory.wf_filter {m : Memory} (p : Host.Cell → Bool) (h : Memory.wf m) : Memory.wf (m.filter p) :=
  ⟨h.1.filter _, fun q hq => h.2 q (List.mem_filter.1 hq).1⟩

/-- A byte write keeps the canonical form. -/
theorem mset_wf {m : Memory} (a : Nat) (b : Byte) (h : Memory.wf m) : Memory.wf (mset m a b) := by
  unfold mset
  split
  · exact ⟨pairwise_tdel a h.1, fun p hp => h.2 p (List.mem_filter.1 hp).1⟩
  · rename_i hb
    refine ⟨pairwise_tset a b h.1, fun p hp => ?_⟩
    rcases mem_tset hp with hp | hp
    · subst hp; exact hb
    · exact h.2 p hp

/-- Writing bytes keeps the canonical form. -/
theorem mwrite_wf {m : Memory} (a : Nat) (bs : List Byte) (h : Memory.wf m) : Memory.wf (mwrite m a bs) := by
  induction bs generalizing m a with
  | nil => exact h
  | cons b bs ih => exact ih (a + 1) (mset_wf a b h)

/-- Writing listed bytes keeps the canonical form. -/
theorem mwriteCells_wf {m : Memory} (cs : List Host.Cell) (h : Memory.wf m) : Memory.wf (mwriteCells m cs) := by
  unfold mwriteCells
  induction cs generalizing m with
  | nil => exact h
  | cons c cs ih => exact ih (mset_wf c.1 c.2 h)

/-- A byte reads as written. -/
@[simp] theorem mget_mset_self (m : Memory) (a : Nat) (b : Byte) : mget (mset m a b) a = b := by
  unfold mget mset
  split
  · rename_i h; simp [tget, h]
  · simp

/-- Other bytes read as before. -/
theorem mget_mset_ne (m : Memory) {a c : Nat} (b : Byte) (h : a ≠ c) : mget (mset m a b) c = mget m c := by
  unfold mget mset
  split
  · simp [tget, tget?_tdel_ne m h]
  · exact tget_tset_ne 0 m b h

/-- Bytes outside a write read as before. -/
theorem mget_mwrite_out (m : Memory) (a c : Nat) (bs : List Byte) (h : c < a ∨ a + bs.length ≤ c) :
    mget (mwrite m a bs) c = mget m c := by
  induction bs generalizing m a with
  | nil => rfl
  | cons b bs ih =>
    simp only [mwrite]
    rw [List.length_cons] at h
    rw [ih (mset m a b) (a + 1) (by omega), mget_mset_ne m b (by omega)]

/-- Bytes of a write read as written. -/
theorem mget_mwrite_in (m : Memory) (a i : Nat) (bs : List Byte) (h : i < bs.length) :
    mget (mwrite m a bs) (a + i) = bs[i] := by
  induction bs generalizing m a i with
  | nil => simp at h
  | cons b bs ih =>
    simp only [mwrite]
    cases i with
    | zero =>
      rw [mget_mwrite_out (mset m a b) (a + 1) (a + 0) bs (by omega)]
      simp
    | succ i =>
      have := ih (mset m a b) (a + 1) i (by simpa using h)
      rw [show a + (i + 1) = a + 1 + i by omega]
      simpa using this

/-- Two canonical memories that read alike at every address are equal. -/
theorem Memory.ext_of_mget {m n : Memory} (hm : Memory.wf m) (hn : Memory.wf n) (h : ∀ a, mget m a = mget n a) : m = n := by
  induction m generalizing n with
  | nil =>
    cases n with
    | nil => rfl
    | cons q n =>
      have := h q.1
      have hq := hn.2 q (by simp)
      simp [mget, tget, tget?] at this
      exact absurd this.symm hq
  | cons p m ih =>
    cases n with
    | nil =>
      have := h p.1
      have hp := hm.2 p (by simp)
      simp [mget, tget, tget?] at this
      exact absurd this hp
    | cons q n =>
      have low : ∀ (x : Host.Cell) (t : Memory) (a : Nat), Memory.wf (x :: t) → a < x.1 → mget (x :: t) a = 0 := by
        intro x t a hx ha
        cases hg : tget? (x :: t) a with
        | none => simp [mget, tget, hg]
        | some b =>
          rcases List.mem_cons.1 (mem_of_tget? hg) with e | e
          · have : a = x.1 := by rw [← e]
            omega
          · have := (List.pairwise_cons.1 hx.1).1 _ e
            simp only at this
            omega
      have head : ∀ (x : Host.Cell) (t : Memory), mget (x :: t) x.1 = x.2 := by
        intro x t; simp [mget, tget, tget?]
      have hk : p.1 = q.1 := by
        rcases Nat.lt_trichotomy p.1 q.1 with l | l | l
        · have := h p.1
          rw [head, low q n _ hn l] at this
          exact absurd this (hm.2 p (by simp))
        · exact l
        · have := h q.1
          rw [head, low p m _ hm l] at this
          exact absurd this.symm (hn.2 q (by simp))
      have hv : p.2 = q.2 := by
        have := h p.1
        rw [head] at this
        rw [this, hk, head]
      have tail : ∀ (x : Host.Cell) (t : Memory), Memory.wf (x :: t) → Memory.wf t := fun x t ht =>
        ⟨(List.pairwise_cons.1 ht.1).2, fun y hy => ht.2 y (List.mem_cons_of_mem _ hy)⟩
      have off : ∀ (x : Host.Cell) (t : Memory), Memory.wf (x :: t) → mget t x.1 = 0 := by
        intro x t ht
        cases hg : tget? t x.1 with
        | none => simp [mget, tget, hg]
        | some b =>
          have := (List.pairwise_cons.1 ht.1).1 _ (mem_of_tget? hg)
          simp only at this
          omega
      have rest : ∀ (x : Host.Cell) (t : Memory) (a : Nat), a ≠ x.1 → mget (x :: t) a = mget t a := by
        intro x t a ha
        simp only [mget, tget, tget?]
        rw [if_neg (Ne.symm ha)]
      have e : m = n := by
        refine ih (tail p m hm) (tail q n hn) fun a => ?_
        by_cases ha : a = p.1
        · rw [ha, off p m hm, hk, off q n hn]
        · rw [← rest p m a ha, h a, rest q n a (hk ▸ ha)]
      obtain ⟨pa, pb⟩ := p
      obtain ⟨qa, qb⟩ := q
      simp only at hk hv
      rw [hk, hv, e]

/-- n bytes read are n bytes. -/
@[simp] theorem mread_length (m : Memory) (a n : Nat) : (mread m a n).length = n := by simp [mread]

@[simp] theorem toBytes_length (n v : Nat) : (toBytes n v).length = n := by
  induction n generalizing v with
  | zero => rfl
  | succ n ih => simp [toBytes, ih]

/-- The value of the bytes of a value is the value, below its size (R4). -/
theorem ofBytes_toBytes (n v : Nat) : ofBytes (toBytes n v) = v % 256 ^ n := by
  induction n generalizing v with
  | zero => simp [toBytes, ofBytes, Nat.mod_one]
  | succ n ih =>
    rw [toBytes, ofBytes, ih, BitVec.toNat_ofNat, Nat.pow_succ' (n := n), Nat.mod_mul (a := 256), show (2 : Nat) ^ 8 = 256 from rfl]

/-! ## Cores, contexts, clusters and dies -/

@[simp] theorem State.core_updCore (s : State) (c : Nat) (f : Core → Core) : (s.updCore c f).core c = f (s.core c) := by
  simp [State.core, State.updCore]

theorem State.core_updCore_ne (s : State) {c d : Nat} (f : Core → Core) (h : c ≠ d) : (s.updCore c f).core d = s.core d := by
  simp [State.core, State.updCore, tget_tset_ne _ _ _ h]

@[simp] theorem State.ctx_updCtx (s : State) (w : At) (f : Ctx → Ctx) : (s.updCtx w f).ctx w = f (s.ctx w) := by
  simp [State.ctx, State.updCtx]

theorem State.ctx_updCtx_ne (s : State) {w v : At} (f : Ctx → Ctx) (h : w ≠ v) : (s.updCtx w f).ctx v = s.ctx v := by
  obtain ⟨wc, wk⟩ := w
  obtain ⟨vc, vk⟩ := v
  by_cases hc : wc = vc
  · subst hc
    have hk : wk ≠ vk := fun e => h (by rw [e])
    simp [State.ctx, State.updCtx, tget_tset_ne _ _ _ hk]
  · simp [State.ctx, State.updCtx, State.core_updCore_ne _ _ hc]

/-- Two updates of one core are one. -/
theorem State.updCore_updCore (s : State) (c : Nat) (f g : Core → Core) :
    (s.updCore c f).updCore c g = s.updCore c fun k => g (f k) := by
  simp [State.updCore, State.core]

/-- Two updates of one context are one. -/
theorem State.updCtx_updCtx (s : State) (w : At) (f g : Ctx → Ctx) :
    (s.updCtx w f).updCtx w g = s.updCtx w fun c => g (f c) := by
  simp [State.updCtx, State.updCore_updCore]

@[simp] theorem State.die_updDie (s : State) (d : Nat) (f : Die → Die) : (s.updDie d f).die d = f (s.die d) := by
  simp [State.die, State.updDie]

@[simp] theorem State.clu_updClu (s : State) (c : Nat) (f : Clu → Clu) : (s.updClu c f).clu c = f (s.clu c) := by
  simp [State.clu, State.updClu]

@[simp] theorem State.commOf_updComm (s : State) (a : Nat) (f : Comm → Comm) : (s.updComm a f).commOf a = f (s.commOf a) := by
  simp [State.commOf, State.updComm]

/-! ## Register files (R216, R217) -/

@[simp] theorem Regs.getX_zero (r : Regs) : r.getX 0 = 0 := rfl
@[simp] theorem Regs.getY_zero (r : Regs) : r.getY 0 = 0 := rfl
@[simp] theorem Regs.getK_zero (r : Regs) : r.getK 0 = BitVec.allOnes 64 := rfl

@[simp] theorem merge_allOnes {w : Nat} (o n : BitVec w) : merge (BitVec.allOnes w) o n = n := by simp [merge]

/-- The mask of a whole register covers 64 bits. -/
theorem wholeMask_low : wholeMask.setWidth 64 = BitVec.allOnes 64 := by
  unfold wholeMask
  ext i hi
  simp

/-- A whole 64-bit value merged through the mask of a whole register is the value. -/
theorem merge_whole (o v : W64) : merge (wholeMask.setWidth 64) o ((v.setWidth 2048).setWidth 64) = v := by
  rw [wholeMask_low, merge_allOnes, BitVec.setWidth_setWidth_of_le v (by omega : 64 ≤ 2048), BitVec.setWidth_eq]

/-- A whole write of a register of a 64-bit file reads back; x0, y0 and k0 keep reading their constant (R216, R217). -/
theorem Regs.get_put_whole (r : Regs) (f : RFile) (n : Nat) (v : W64) (hf : f ≠ .v) :
    (r.put f n wholeMask (v.setWidth 2048)).get f n = if n = 0 then (match f with
      | .x => 0
      | .y => 0
      | .k => BitVec.allOnes 64
      | _ => v) else v := by
  by_cases h : n = 0
  · subst h
    cases f with
    | v => exact absurd rfl hf
    | x => rfl
    | y => rfl
    | k => rfl
    | a => simp only [Regs.put, Regs.get, Regs.getA, merge_whole, tget_tset_self, ite_true]
    | e => simp only [Regs.put, Regs.get, Regs.getE, merge_whole, tget_tset_self, ite_true]
    | tl => simp only [Regs.put, Regs.get, Regs.getTl, merge_whole, tget_tset_self, ite_true]
  · rw [if_neg h]
    cases f with
    | v => exact absurd rfl hf
    | x => simp only [Regs.put, Regs.get, Regs.getX, if_neg h, merge_whole, tget_tset_self]
    | y => simp only [Regs.put, Regs.get, Regs.getY, if_neg h, merge_whole, tget_tset_self]
    | k => simp only [Regs.put, Regs.get, Regs.getK, if_neg h, merge_whole, tget_tset_self]
    | a => simp only [Regs.put, Regs.get, Regs.getA, merge_whole, tget_tset_self]
    | e => simp only [Regs.put, Regs.get, Regs.getE, merge_whole, tget_tset_self]
    | tl => simp only [Regs.put, Regs.get, Regs.getTl, merge_whole, tget_tset_self]

/-- A write of a v register reads back the masked bits and keeps the others. -/
theorem Regs.getV_put (r : Regs) (n : Nat) (m v : VReg) : (r.put .v n m v).getV n = merge m (r.getV n) v := by
  simp [Regs.put, Regs.getV]

end Sys2Proof.Machine
end

