-- ==== Sys2Proof/Laws/Issue.lean ====
section
/-! SUPPORT. The spec lemmas of issue: what a one-slot bundle does once its checks have passed. -/

namespace Sys2Proof.Machine

open Sys2Proof

/-- Landing results in flight leaves everything of a context but its registers and its list of flights. -/
@[simp] theorem Ctx.landTo_sys (c : Ctx) (n : Nat) : (c.landTo n).sys = c.sys := rfl
@[simp] theorem Ctx.landTo_eng (c : Ctx) (n : Nat) : (c.landTo n).eng = c.eng := rfl
@[simp] theorem Ctx.landTo_sched (c : Ctx) (n : Nat) : (c.landTo n).sched = c.sched := rfl
@[simp] theorem Ctx.landTo_evq (c : Ctx) (n : Nat) : (c.landTo n).evq = c.evq := rfl
@[simp] theorem Ctx.landTo_owed (c : Ctx) (n : Nat) : (c.landTo n).owed = c.owed := rfl
@[simp] theorem Ctx.landTo_copyq (c : Ctx) (n : Nat) : (c.landTo n).copyq = c.copyq := rfl
@[simp] theorem Ctx.landTo_trid (c : Ctx) (n : Nat) : (c.landTo n).trid = c.trid := rfl
@[simp] theorem Ctx.landTo_phases (c : Ctx) (n : Nat) : (c.landTo n).phases = c.phases := rfl
@[simp] theorem Ctx.landTo_phase (c : Ctx) (n : Nat) : (c.landTo n).phase = c.phase := rfl
@[simp] theorem Ctx.landTo_extents (c : Ctx) (n : Nat) : (c.landTo n).extents = c.extents := rfl
@[simp] theorem Ctx.landTo_stamp (c : Ctx) (n : Nat) : (c.landTo n).stamp = c.stamp := rfl
@[simp] theorem Ctx.landTo_slice (c : Ctx) (n : Nat) : (c.landTo n).slice = c.slice := rfl
@[simp] theorem Ctx.landTo_inh (c : Ctx) (n : Nat) : (c.landTo n).inh = c.inh := rfl
@[simp] theorem Ctx.landTo_sup (c : Ctx) (n : Nat) : (c.landTo n).sup = c.sup := rfl
@[simp] theorem Ctx.landTo_asid (c : Ctx) (n : Nat) : (c.landTo n).asid = c.asid := rfl
@[simp] theorem Ctx.landTo_tridN (c : Ctx) (n : Nat) : (c.landTo n).tridN = c.tridN := rfl
@[simp] theorem Ctx.landTo_mayIssue (c : Ctx) (n : Nat) : (c.landTo n).mayIssue = c.mayIssue := rfl
@[simp] theorem Ctx.landTo_pc (c : Ctx) (n : Nat) : (c.landTo n).pipe.pc = c.pipe.pc := rfl
@[simp] theorem Ctx.landTo_count (c : Ctx) (n : Nat) : (c.landTo n).pipe.count = c.pipe.count := rfl
@[simp] theorem Ctx.landTo_sb (c : Ctx) (n : Nat) : (c.landTo n).pipe.sb = c.pipe.sb := rfl
@[simp] theorem Ctx.landTo_loops (c : Ctx) (n : Nat) : (c.landTo n).pipe.loops = c.pipe.loops := rfl
@[simp] theorem Ctx.landTo_shadow (c : Ctx) (n : Nat) : (c.landTo n).pipe.shadow = c.pipe.shadow := rfl
@[simp] theorem Ctx.landTo_ntr (c : Ctx) (n : Nat) : (c.landTo n).pipe.ntr = c.pipe.ntr := rfl

/-- With nothing in flight, nothing lands. -/
theorem Ctx.landTo_quiet {c : Ctx} (h : c.pipe.inflight = []) (n : Nat) : c.landTo n = c := by
  unfold Ctx.landTo
  rw [h]
  obtain ⟨_, _, _, ⟨_, _, _⟩⟩ := c
  simp_all

@[simp] theorem State.ctx_landed (s : State) (w : At) : (s.landed w).ctx w = (s.ctx w).landTo (s.ctx w).pipe.count := by
  simp [State.landed]

/-- A slot that passes every check of R221 and stalls on nothing retires. -/
theorem issueOne_retire {sl : SlotSem} {s : State} {w : At} (hc : s.cur = some w) (hm : (s.ctx w).mayIssue = true)
    (he : earlyTrap (s.ctx w).sup [sl] sl.words = none) (hs : (s.landed w).stallOf w [sl] = none)
    (hl : (s.landed w).lateTrap w [sl] sl.words = none) :
    issueOne sl s = .next ((s.landed w).retire w [sl] sl.words) := by
  simp [issueOne, hc, State.issueBundle, hm, he, hs, hl]

/-- A slot that fails check 3 or 4 takes its trap, on the state whose due results have not landed (R221). -/
theorem issueOne_early {sl : SlotSem} {s : State} {w : At} {t : Trap} (hc : s.cur = some w)
    (hm : (s.ctx w).mayIssue = true) (he : earlyTrap (s.ctx w).sup [sl] sl.words = some t) :
    issueOne sl s = .next (s.takeTrap w t (s.ctx w).pipe.pc sl.words) := by
  simp [issueOne, hc, State.issueBundle, hm, he]

/-- A slot that stalls leaves its context at the bundle (R363). -/
theorem issueOne_stall {sl : SlotSem} {s : State} {w : At} {r : Run} {f : State → State} (hc : s.cur = some w)
    (hm : (s.ctx w).mayIssue = true) (he : earlyTrap (s.ctx w).sup [sl] sl.words = none)
    (hs : (s.landed w).stallOf w [sl] = some (r, f)) : issueOne sl s = .next (s.stallAt w r f) := by
  simp [issueOne, hc, State.issueBundle, hm, he, hs]

/-- A slot that fails check 5 takes its trap (R221). -/
theorem issueOne_late {sl : SlotSem} {s : State} {w : At} {t : Trap} (hc : s.cur = some w)
    (hm : (s.ctx w).mayIssue = true) (he : earlyTrap (s.ctx w).sup [sl] sl.words = none)
    (hs : (s.landed w).stallOf w [sl] = none) (hl : (s.landed w).lateTrap w [sl] sl.words = some t) :
    issueOne sl s = .next (s.takeTrap w t (s.ctx w).pipe.pc sl.words) := by
  simp [issueOne, hc, State.issueBundle, hm, he, hs, hl]

/-- With no scoreboarded result in flight, no slot stalls on one (R233). -/
theorem SlotSem.stalls_of_sb {p : Pipe} {sl : SlotSem} (h : p.sb = []) (hsb : sl.sb = false) : sl.stalls p = false := by
  simp [SlotSem.stalls, Pipe.scoreboarded, h, hsb]

/-- With nothing in flight at all, no slot stalls on a result (R233, R234). -/
theorem SlotSem.stalls_of_quiet {p : Pipe} {sl : SlotSem} (h : p.sb = []) (hf : p.inflight = []) : sl.stalls p = false := by
  simp [SlotSem.stalls, Pipe.scoreboarded, Pipe.flying, h, hf]

/-- The flights left after landing are no more than before. -/
theorem Ctx.landTo_inflight_length (c : Ctx) (n : Nat) : (c.landTo n).pipe.inflight.length ≤ c.pipe.inflight.length :=
  List.length_filter_le _ _

/-- A context whose shadow buffer has room for two results takes a bundle of up to two. -/
theorem Free.room {s : State} {w : At} (h : Free s w) {n : Nat} (hn : n ≤ 2) :
    shadowFull ((s.landed w).ctx w) n = false := by
  rcases h.2.2.2 with h | h
  · simp [shadowFull, h]
  · have := Ctx.landTo_inflight_length (s.ctx w) (s.ctx w).pipe.count
    simp only [shadowFull, State.ctx_landed, Ctx.landTo_inh, Ctx.landTo_shadow, Ctx.landTo_ntr, Bool.and_eq_false_iff,
      decide_eq_false_iff_not]
    right
    omega

/-- A slot that takes no call adds its results and those that are pending (Table 10-16). -/
theorem SlotSem.adds_seq {sl : SlotSem} {w : At} {s : State} (h : sl.ctl w s = .seq) :
    sl.adds w s = (sl.results w s).length + sl.pends := by simp [SlotSem.adds, h]

@[simp] theorem State.tasks_landed (s : State) (w : At) : (s.landed w).tasks = s.tasks := rfl

/-- Two updates that agree on the context itself are one. -/
theorem State.updCtx_congr {s : State} {w : At} {f g : Ctx → Ctx} (h : f (s.ctx w) = g (s.ctx w)) :
    s.updCtx w f = s.updCtx w g := by
  unfold State.ctx at h
  simp only [State.updCtx, State.updCore, h]

@[simp] theorem State.tasks_updCtx' (s : State) (w : At) (f : Ctx → Ctx) : (s.updCtx w f).tasks = s.tasks := rfl

/-- The kernel iterations that a bundle at pc adds for a task (R366). -/
def kernelStarts (t : Option Task) (pc : W64) : Nat :=
  if (match t with
    | some t => t.lren && pc == t.codebase + BitVec.ofNat 64 (4 * t.ker)
    | none => false) then 1 else 0

/-- Counting a kernel iteration on a context that an update has written is one update (R366). -/
theorem State.countKernel_updCtx (s : State) (w : At) (f : Ctx → Ctx) (pc : W64) :
    (s.updCtx w f).countKernel w pc = s.updCtx w fun c =>
      { f c with sched := { (f c).sched with
          kiter := (f c).sched.kiter + kernelStarts ((s.updCtx w f).taskOf w) pc } } := by
  unfold State.countKernel kernelStarts
  cases (s.updCtx w f).taskOf w with
  | none => rfl
  | some t =>
    simp only
    split
    · simp only [State.updSched, State.updCtx_updCtx]
    · rfl

/-- What retiring a slot that only gives results does: the state after the bundle. -/
theorem retire_issued {sl : SlotSem} {s : State} {w : At} (hctl : ∀ t, sl.ctl w t = .seq)
    (heff : ∀ p t, sl.effect w p t = t) :
    (s.landed w).retire w [sl] sl.words = s.issued w sl.words (sl.results w (s.landed w)) := by
  simp only [State.retire, firstSlot, List.findSome?_cons, List.findSome?_nil, hctl, Option.getD_none, List.foldl_cons,
    List.foldl_nil, heff, callRes, State.advance, State.updPipe, State.updSched]
  generalize sl.results w (s.landed w) = rs
  simp only [State.landed, State.updCtx_updCtx, State.ctx_updCtx, State.countKernel_updCtx, State.issued, State.taskOf,
    State.tasks_updCtx']
  apply State.updCtx_congr
  rfl

/-- A free context passes every check for a slot that names nothing illegal, privileged or trapping, and waits for nothing. -/
theorem Free.passes {sl : SlotSem} {s : State} {w : At} (h : Free s w) (hill : sl.ill = false) (hloop : sl.loop = none)
    (hpriv : sl.priv (s.ctx w).sup = false) (hst : sl.stalls ((s.landed w).ctx w).pipe = false)
    (hwait : sl.wait w (s.landed w) = none) (htrap : sl.trap5 w (s.landed w) = none)
    (hlen : sl.adds w (s.landed w) ≤ 2) :
    issueOne sl s = .next ((s.landed w).retire w [sl] sl.words) := by
  refine issueOne_retire h.1 h.2.1 ?_ ?_ ?_
  · simp [earlyTrap, firstSlot, hill, hloop, hpriv]
  · simp only [State.stallOf, firstSlot, List.any_cons, List.any_nil, hst, Bool.or_false, List.findSome?_cons, hwait,
      List.findSome?_nil, Bool.false_eq_true, if_false]
  · have hr := h.room hlen
    simp only [State.lateTrap, firstSlot, List.findSome?_cons, SlotSem.closesTop, hloop, Option.isSome_none,
      Bool.false_and, Bool.false_eq_true, if_false, htrap, List.findSome?_nil, State.fullAt, Nat.zero_add, hr, Option.map_none]

/-- A slot that only gives fixed-latency results issues in a free context. -/
theorem issueOne_value {sl : SlotSem} {s : State} {w : At} (h : Free s w) (hill : sl.ill = false) (hloop : sl.loop = none)
    (hpriv : sl.priv (s.ctx w).sup = false) (hsb : sl.sb = false)
    (hwait : sl.wait w (s.landed w) = none) (htrap : sl.trap5 w (s.landed w) = none)
    (hlen : (sl.results w (s.landed w)).length + sl.pends ≤ 2) (hctl : ∀ t, sl.ctl w t = .seq)
    (heff : ∀ p t, sl.effect w p t = t) :
    issueOne sl s = .next (s.issued w sl.words (sl.results w (s.landed w))) := by
  have hst : sl.stalls ((s.landed w).ctx w).pipe = false :=
    SlotSem.stalls_of_sb (by rw [State.ctx_landed, Ctx.landTo_sb]; exact h.2.2.1) hsb
  rw [h.passes hill hloop hpriv hst hwait htrap (by rw [SlotSem.adds_seq (hctl _)]; exact hlen), retire_issued hctl heff]

end Sys2Proof.Machine
end

