-- ==== Sys2Proof/Laws/PerInstr.lean ====
section
/-! SUPPORT. Of each instruction, whether it is a slot: exactly the slots have a slot word, and no slot has a
transport-core word (R166, R219). -/

namespace Sys2Proof

open Machine

/-- An instruction has a slot word exactly if it has a meaning as a slot, and then no transport-core word. -/
def Laws.SlotWords.Statement (i : Instr) : Prop :=
  (encodeSlot i).isSome = (slotOf i).isSome ∧ ((encodeSlot i).isSome && (encodeTc i).isSome) = false

theorem Laws.SlotWords.add (f : SFile) (d a : R5) (b : SOpd) : Laws.SlotWords.Statement (.add f d a b) := by
  cases b <;> exact ⟨rfl, rfl⟩
theorem Laws.SlotWords.sub (f : SFile) (d a b : R5) : Laws.SlotWords.Statement (.sub f d a b) := ⟨rfl, rfl⟩
theorem Laws.SlotWords.mul (f : SFile) (d a : R5) (b : SOpd) : Laws.SlotWords.Statement (.mul f d a b) := by
  cases b <;> exact ⟨rfl, rfl⟩
theorem Laws.SlotWords.mulh (f : SFile) (d a b : R5) : Laws.SlotWords.Statement (.mulh f d a b) := ⟨rfl, rfl⟩
theorem Laws.SlotWords.mulhu (f : SFile) (d a b : R5) : Laws.SlotWords.Statement (.mulhu f d a b) := ⟨rfl, rfl⟩
theorem Laws.SlotWords.div (f : SFile) (d a b : R5) : Laws.SlotWords.Statement (.div f d a b) := ⟨rfl, rfl⟩
theorem Laws.SlotWords.divu (f : SFile) (d a b : R5) : Laws.SlotWords.Statement (.divu f d a b) := ⟨rfl, rfl⟩
theorem Laws.SlotWords.rem (f : SFile) (d a b : R5) : Laws.SlotWords.Statement (.rem f d a b) := ⟨rfl, rfl⟩
theorem Laws.SlotWords.and (f : SFile) (d a : R5) (b : SOpd) : Laws.SlotWords.Statement (.and f d a b) := by
  cases b <;> exact ⟨rfl, rfl⟩
theorem Laws.SlotWords.or (f : SFile) (d a : R5) (b : SOpd) : Laws.SlotWords.Statement (.or f d a b) := by
  cases b <;> exact ⟨rfl, rfl⟩
theorem Laws.SlotWords.xor (f : SFile) (d a : R5) (b : SOpd) : Laws.SlotWords.Statement (.xor f d a b) := by
  cases b <;> exact ⟨rfl, rfl⟩
theorem Laws.SlotWords.shl (f : SFile) (d a : R5) (b : SOpd) : Laws.SlotWords.Statement (.shl f d a b) := by
  cases b <;> exact ⟨rfl, rfl⟩
theorem Laws.SlotWords.shr (f : SFile) (d a : R5) (b : SOpd) : Laws.SlotWords.Statement (.shr f d a b) := by
  cases b <;> exact ⟨rfl, rfl⟩
theorem Laws.SlotWords.sar (f : SFile) (d a : R5) (b : SOpd) : Laws.SlotWords.Statement (.sar f d a b) := by
  cases b <;> exact ⟨rfl, rfl⟩
theorem Laws.SlotWords.min (f : SFile) (d a : R5) (b : SOpd) : Laws.SlotWords.Statement (.min f d a b) := by
  cases b <;> exact ⟨rfl, rfl⟩
theorem Laws.SlotWords.max (f : SFile) (d a : R5) (b : SOpd) : Laws.SlotWords.Statement (.max f d a b) := by
  cases b <;> exact ⟨rfl, rfl⟩
theorem Laws.SlotWords.minu (f : SFile) (d a : R5) (b : SOpd) : Laws.SlotWords.Statement (.minu f d a b) := by
  cases b <;> exact ⟨rfl, rfl⟩
theorem Laws.SlotWords.maxu (f : SFile) (d a : R5) (b : SOpd) : Laws.SlotWords.Statement (.maxu f d a b) := by
  cases b <;> exact ⟨rfl, rfl⟩
theorem Laws.SlotWords.seq (f : SFile) (d a : R5) (b : SOpd) : Laws.SlotWords.Statement (.seq f d a b) := by
  cases b <;> exact ⟨rfl, rfl⟩
theorem Laws.SlotWords.slt (f : SFile) (d a : R5) (b : SOpd) : Laws.SlotWords.Statement (.slt f d a b) := by
  cases b <;> exact ⟨rfl, rfl⟩
theorem Laws.SlotWords.sltu (f : SFile) (d a : R5) (b : SOpd) : Laws.SlotWords.Statement (.sltu f d a b) := by
  cases b <;> exact ⟨rfl, rfl⟩
theorem Laws.SlotWords.sel (f : SFile) (d a b c : R5) : Laws.SlotWords.Statement (.sel f d a b c) := ⟨rfl, rfl⟩
theorem Laws.SlotWords.clz (f : SFile) (d a : R5) : Laws.SlotWords.Statement (.clz f d a) := ⟨rfl, rfl⟩
theorem Laws.SlotWords.popc (f : SFile) (d a : R5) : Laws.SlotWords.Statement (.popc f d a) := ⟨rfl, rfl⟩
theorem Laws.SlotWords.bfx (f : SFile) (d a : R5) (pos len1 : BitVec 6) : Laws.SlotWords.Statement (.bfx f d a pos len1) := ⟨rfl, rfl⟩
theorem Laws.SlotWords.bfi (f : SFile) (d a : R5) (pos len1 : BitVec 6) : Laws.SlotWords.Statement (.bfi f d a pos len1) := ⟨rfl, rfl⟩
theorem Laws.SlotWords.addsh (f : SFile) (d a b : R5) (sh : BitVec 6) : Laws.SlotWords.Statement (.addsh f d a b sh) := ⟨rfl, rfl⟩
theorem Laws.SlotWords.li (f : SFile) (d : R5) (h : Bool) (hi : BitVec 16) (lo : BitVec 31) : Laws.SlotWords.Statement (.li f d h hi lo) := ⟨rfl, rfl⟩
theorem Laws.SlotWords.mfs (f : SFile) (d : R5) (sel : BitVec 12) : Laws.SlotWords.Statement (.mfs f d sel) := ⟨rfl, rfl⟩
theorem Laws.SlotWords.mts (f : SFile) (a : R5) (sel : BitVec 12) : Laws.SlotWords.Statement (.mts f a sel) := ⟨rfl, rfl⟩
theorem Laws.SlotWords.cpy (l : CpyLane) (d : R5) (sf : BitVec 3) (s piece : R5) (dk : Bool) : Laws.SlotWords.Statement (.cpy l d sf s piece dk) := ⟨rfl, rfl⟩
theorem Laws.SlotWords.vadd (o : VOpd) (w : Option Rnd) : Laws.SlotWords.Statement (.vadd o w) := by
  cases w <;> exact ⟨rfl, rfl⟩
theorem Laws.SlotWords.vsub (o : VOpd) (w : Option Rnd) : Laws.SlotWords.Statement (.vsub o w) := by
  cases w <;> exact ⟨rfl, rfl⟩
theorem Laws.SlotWords.vmul (o : VOpd) (w : Option Rnd) : Laws.SlotWords.Statement (.vmul o w) := by
  cases w <;> exact ⟨rfl, rfl⟩
theorem Laws.SlotWords.vfma (o : VOpd) (w : Option Rnd) : Laws.SlotWords.Statement (.vfma o w) := by
  cases w <;> exact ⟨rfl, rfl⟩
theorem Laws.SlotWords.vfms (o : VOpd) (w : Option Rnd) : Laws.SlotWords.Statement (.vfms o w) := by
  cases w <;> exact ⟨rfl, rfl⟩
theorem Laws.SlotWords.vexp2 (o : VOpd) (w : Option Rnd) : Laws.SlotWords.Statement (.vexp2 o w) := by
  cases w <;> exact ⟨rfl, rfl⟩
theorem Laws.SlotWords.vlog2 (o : VOpd) (w : Option Rnd) : Laws.SlotWords.Statement (.vlog2 o w) := by
  cases w <;> exact ⟨rfl, rfl⟩
theorem Laws.SlotWords.vrcp (o : VOpd) (w : Option Rnd) : Laws.SlotWords.Statement (.vrcp o w) := by
  cases w <;> exact ⟨rfl, rfl⟩
theorem Laws.SlotWords.vrsq (o : VOpd) (w : Option Rnd) : Laws.SlotWords.Statement (.vrsq o w) := by
  cases w <;> exact ⟨rfl, rfl⟩
theorem Laws.SlotWords.vcvt (o : VOpd) (w : Option Rnd) : Laws.SlotWords.Statement (.vcvt o w) := by
  cases w <;> exact ⟨rfl, rfl⟩
theorem Laws.SlotWords.vreds (o : VOpd) (w : Option Rnd) : Laws.SlotWords.Statement (.vreds o w) := by
  cases w <;> exact ⟨rfl, rfl⟩
theorem Laws.SlotWords.vscan (o : VOpd) (w : Option Rnd) : Laws.SlotWords.Statement (.vscan o w) := by
  cases w <;> exact ⟨rfl, rfl⟩
theorem Laws.SlotWords.vmax (o : VOpd) : Laws.SlotWords.Statement (.vmax o) := ⟨rfl, rfl⟩
theorem Laws.SlotWords.vmin (o : VOpd) : Laws.SlotWords.Statement (.vmin o) := ⟨rfl, rfl⟩
theorem Laws.SlotWords.vabs (o : VOpd) : Laws.SlotWords.Statement (.vabs o) := ⟨rfl, rfl⟩
theorem Laws.SlotWords.vneg (o : VOpd) : Laws.SlotWords.Statement (.vneg o) := ⟨rfl, rfl⟩
theorem Laws.SlotWords.vcmp (o : VOpd) : Laws.SlotWords.Statement (.vcmp o) := ⟨rfl, rfl⟩
theorem Laws.SlotWords.vsel (o : VOpd) : Laws.SlotWords.Statement (.vsel o) := ⟨rfl, rfl⟩
theorem Laws.SlotWords.vand (o : VOpd) : Laws.SlotWords.Statement (.vand o) := ⟨rfl, rfl⟩
theorem Laws.SlotWords.vor (o : VOpd) : Laws.SlotWords.Statement (.vor o) := ⟨rfl, rfl⟩
theorem Laws.SlotWords.vxor (o : VOpd) : Laws.SlotWords.Statement (.vxor o) := ⟨rfl, rfl⟩
theorem Laws.SlotWords.vnot (o : VOpd) : Laws.SlotWords.Statement (.vnot o) := ⟨rfl, rfl⟩
theorem Laws.SlotWords.vshl (o : VOpd) : Laws.SlotWords.Statement (.vshl o) := ⟨rfl, rfl⟩
theorem Laws.SlotWords.vshr (o : VOpd) : Laws.SlotWords.Statement (.vshr o) := ⟨rfl, rfl⟩
theorem Laws.SlotWords.vsar (o : VOpd) : Laws.SlotWords.Statement (.vsar o) := ⟨rfl, rfl⟩
theorem Laws.SlotWords.vredm (o : VOpd) : Laws.SlotWords.Statement (.vredm o) := ⟨rfl, rfl⟩
theorem Laws.SlotWords.vbcast (o : VOpd) : Laws.SlotWords.Statement (.vbcast o) := ⟨rfl, rfl⟩
theorem Laws.SlotWords.viota (o : VOpd) : Laws.SlotWords.Statement (.viota o) := ⟨rfl, rfl⟩
theorem Laws.SlotWords.vgauss (o : VOpd) : Laws.SlotWords.Statement (.vgauss o) := ⟨rfl, rfl⟩
theorem Laws.SlotWords.vrand (o : VOpd) : Laws.SlotWords.Statement (.vrand o) := ⟨rfl, rfl⟩
theorem Laws.SlotWords.kand (kd ka kb : BitVec 3) : Laws.SlotWords.Statement (.kand kd ka kb) := ⟨rfl, rfl⟩
theorem Laws.SlotWords.kor (kd ka kb : BitVec 3) : Laws.SlotWords.Statement (.kor kd ka kb) := ⟨rfl, rfl⟩
theorem Laws.SlotWords.kxor (kd ka kb : BitVec 3) : Laws.SlotWords.Statement (.kxor kd ka kb) := ⟨rfl, rfl⟩
theorem Laws.SlotWords.knot (kd ka : BitVec 3) : Laws.SlotWords.Statement (.knot kd ka) := ⟨rfl, rfl⟩
theorem Laws.SlotWords.kpop (kd ka : BitVec 3) : Laws.SlotWords.Statement (.kpop kd ka) := ⟨rfl, rfl⟩
theorem Laws.SlotWords.pack (o : FOpd) (w : Option Rnd) : Laws.SlotWords.Statement (.pack o w) := by
  cases w <;> exact ⟨rfl, rfl⟩
theorem Laws.SlotWords.vscale (o : FOpd) (w : Option Rnd) : Laws.SlotWords.Statement (.vscale o w) := by
  cases w <;> exact ⟨rfl, rfl⟩
theorem Laws.SlotWords.swjoin (o : FOpd) (w : Option Rnd) : Laws.SlotWords.Statement (.swjoin o w) := by
  cases w <;> exact ⟨rfl, rfl⟩
theorem Laws.SlotWords.unpack (o : FOpd) : Laws.SlotWords.Statement (.unpack o) := ⟨rfl, rfl⟩
theorem Laws.SlotWords.bscale (o : FOpd) : Laws.SlotWords.Statement (.bscale o) := ⟨rfl, rfl⟩
theorem Laws.SlotWords.perm (o : FOpd) : Laws.SlotWords.Statement (.perm o) := ⟨rfl, rfl⟩
theorem Laws.SlotWords.zip (o : FOpd) : Laws.SlotWords.Statement (.zip o) := ⟨rfl, rfl⟩
theorem Laws.SlotWords.unzip (o : FOpd) : Laws.SlotWords.Statement (.unzip o) := ⟨rfl, rfl⟩
theorem Laws.SlotWords.xpose (o : FOpd) : Laws.SlotWords.Statement (.xpose o) := ⟨rfl, rfl⟩
theorem Laws.SlotWords.rnsenc (o : FOpd) : Laws.SlotWords.Statement (.rnsenc o) := ⟨rfl, rfl⟩
theorem Laws.SlotWords.rnsdec (o : FOpd) : Laws.SlotWords.Statement (.rnsdec o) := ⟨rfl, rfl⟩
theorem Laws.SlotWords.cpye (o : FOpd) : Laws.SlotWords.Statement (.cpye o) := ⟨rfl, rfl⟩
theorem Laws.SlotWords.swsplit (o : FOpd) : Laws.SlotWords.Statement (.swsplit o) := ⟨rfl, rfl⟩
theorem Laws.SlotWords.ld (f : SFile) (sz : LdSz) (o : LmOpd) : Laws.SlotWords.Statement (.ld f sz o) := ⟨rfl, rfl⟩
theorem Laws.SlotWords.st (f : SFile) (sz : StSz) (o : LmOpd) : Laws.SlotWords.Statement (.st f sz o) := ⟨rfl, rfl⟩
theorem Laws.SlotWords.vld (d : R5) (a : BitVec 4) (k : BitVec 3) (disp : BitVec 8) : Laws.SlotWords.Statement (.vld d a k disp) := ⟨rfl, rfl⟩
theorem Laws.SlotWords.vst (d : R5) (a : BitVec 4) (k : BitVec 3) (disp : BitVec 8) : Laws.SlotWords.Statement (.vst d a k disp) := ⟨rfl, rfl⟩
theorem Laws.SlotWords.vlds (d : R5) (a : BitVec 4) (k : BitVec 3) (ix : BitVec 4) (esz : BitVec 2) : Laws.SlotWords.Statement (.vlds d a k ix esz) := ⟨rfl, rfl⟩
theorem Laws.SlotWords.vsts (d : R5) (a : BitVec 4) (k : BitVec 3) (ix : BitVec 4) (esz : BitVec 2) : Laws.SlotWords.Statement (.vsts d a k ix esz) := ⟨rfl, rfl⟩
theorem Laws.SlotWords.vgth (d : R5) (a : BitVec 4) (k : BitVec 3) (ix : R5) (esz : BitVec 2) : Laws.SlotWords.Statement (.vgth d a k ix esz) := ⟨rfl, rfl⟩
theorem Laws.SlotWords.vsct (d : R5) (a : BitVec 4) (k : BitVec 3) (ix : R5) (esz : BitVec 2) : Laws.SlotWords.Statement (.vsct d a k ix esz) := ⟨rfl, rfl⟩
theorem Laws.SlotWords.bld (o : LbOpd) : Laws.SlotWords.Statement (.bld o) := ⟨rfl, rfl⟩
theorem Laws.SlotWords.bst (o : LbOpd) : Laws.SlotWords.Statement (.bst o) := ⟨rfl, rfl⟩
theorem Laws.SlotWords.atadd (o : LaOpd) : Laws.SlotWords.Statement (.atadd o) := ⟨rfl, rfl⟩
theorem Laws.SlotWords.atmin (o : LaOpd) : Laws.SlotWords.Statement (.atmin o) := ⟨rfl, rfl⟩
theorem Laws.SlotWords.atmax (o : LaOpd) : Laws.SlotWords.Statement (.atmax o) := ⟨rfl, rfl⟩
theorem Laws.SlotWords.atxch (o : LaOpd) : Laws.SlotWords.Statement (.atxch o) := ⟨rfl, rfl⟩
theorem Laws.SlotWords.ator (o : LaOpd) : Laws.SlotWords.Statement (.ator o) := ⟨rfl, rfl⟩
theorem Laws.SlotWords.atand (o : LaOpd) : Laws.SlotWords.Statement (.atand o) := ⟨rfl, rfl⟩
theorem Laws.SlotWords.atcas (o : LaOpd) : Laws.SlotWords.Statement (.atcas o) := ⟨rfl, rfl⟩
theorem Laws.SlotWords.atcas2 (o : LaOpd) : Laws.SlotWords.Statement (.atcas2 o) := ⟨rfl, rfl⟩
theorem Laws.SlotWords.fence (scope : BitVec 3) (kind : BitVec 2) : Laws.SlotWords.Statement (.fence scope kind) := ⟨rfl, rfl⟩
theorem Laws.SlotWords.cflush (d : R5) (a : BitVec 4) (scope : BitVec 3) : Laws.SlotWords.Statement (.cflush d a scope) := ⟨rfl, rfl⟩
theorem Laws.SlotWords.cinv (d : R5) (a : BitVec 4) (scope : BitVec 3) : Laws.SlotWords.Statement (.cinv d a scope) := ⟨rfl, rfl⟩
theorem Laws.SlotWords.pref (a : BitVec 4) (level : BitVec 2) (disp : BitVec 8) : Laws.SlotWords.Statement (.pref a level disp) := ⟨rfl, rfl⟩
theorem Laws.SlotWords.amov (d : R5) (a : BitVec 4) (imm : BitVec 13) : Laws.SlotWords.Statement (.amov d a imm) := ⟨rfl, rfl⟩
theorem Laws.SlotWords.ainc (d : R5) (a : BitVec 4) (imm : BitVec 13) : Laws.SlotWords.Statement (.ainc d a imm) := ⟨rfl, rfl⟩
theorem Laws.SlotWords.caskAlloc (d : R5) (a : BitVec 4) (n : BitVec 13) : Laws.SlotWords.Statement (.caskAlloc d a n) := ⟨rfl, rfl⟩
theorem Laws.SlotWords.caskFree (d : R5) (a : BitVec 4) (n : BitVec 13) : Laws.SlotWords.Statement (.caskFree d a n) := ⟨rfl, rfl⟩
theorem Laws.SlotWords.setkp (key : R5) (right : BitVec 2) : Laws.SlotWords.Statement (.setkp key right) := ⟨rfl, rfl⟩
theorem Laws.SlotWords.mma (o : MmaOpd) : Laws.SlotWords.Statement (.mma o) := ⟨rfl, rfl⟩
theorem Laws.SlotWords.mmag (o : MmaOpd) : Laws.SlotWords.Statement (.mmag o) := ⟨rfl, rfl⟩
theorem Laws.SlotWords.mzero (set : BitVec 4) (ef : Bool) : Laws.SlotWords.Statement (.mzero set ef) := ⟨rfl, rfl⟩
theorem Laws.SlotWords.mcvt (o : McvtOpd) : Laws.SlotWords.Statement (.mcvt o) := ⟨rfl, rfl⟩
theorem Laws.SlotWords.ewr (a : R5) (n : BitVec 12) : Laws.SlotWords.Statement (.ewr a n) := ⟨rfl, rfl⟩
theorem Laws.SlotWords.placementInstall (core ctx : Nat) : Laws.SlotWords.Statement (.placementInstall core ctx) := ⟨rfl, rfl⟩
theorem Laws.SlotWords.erd (d : R5) (n : BitVec 12) : Laws.SlotWords.Statement (.erd d n) := ⟨rfl, rfl⟩
theorem Laws.SlotWords.cpyq (q : BitVec 2) (n : BitVec 3) : Laws.SlotWords.Statement (.cpyq q n) := ⟨rfl, rfl⟩
theorem Laws.SlotWords.qfence (a : R5) (mask : BitVec 4) (evt : Bool) : Laws.SlotWords.Statement (.qfence a mask evt) := ⟨rfl, rfl⟩
theorem Laws.SlotWords.rwait (a : R5) (h : BitVec 4) (n8 : BitVec 8) : Laws.SlotWords.Statement (.rwait a h n8) := ⟨rfl, rfl⟩
theorem Laws.SlotWords.rfree (a : R5) (h : BitVec 4) (n8 : BitVec 8) : Laws.SlotWords.Statement (.rfree a h n8) := ⟨rfl, rfl⟩
theorem Laws.SlotWords.radvP (a : R5) (h : BitVec 4) (n8 : BitVec 8) : Laws.SlotWords.Statement (.radvP a h n8) := ⟨rfl, rfl⟩
theorem Laws.SlotWords.radvC (a : R5) (h : BitVec 4) (n8 : BitVec 8) : Laws.SlotWords.Statement (.radvC a h n8) := ⟨rfl, rfl⟩
theorem Laws.SlotWords.waitt (a : R5) : Laws.SlotWords.Statement (.waitt a) := ⟨rfl, rfl⟩
theorem Laws.SlotWords.txput (a : R5) (set : BitVec 4) (ne : Bool) : Laws.SlotWords.Statement (.txput a set ne) := ⟨rfl, rfl⟩
theorem Laws.SlotWords.txget (a : R5) (set : BitVec 4) (ne : Bool) : Laws.SlotWords.Statement (.txget a set ne) := ⟨rfl, rfl⟩
theorem Laws.SlotWords.txred (a b : R5) (set : BitVec 4) (ne : Bool) : Laws.SlotWords.Statement (.txred a b set ne) := ⟨rfl, rfl⟩
theorem Laws.SlotWords.txmc (a b : R5) (set : BitVec 4) (ne : Bool) : Laws.SlotWords.Statement (.txmc a b set ne) := ⟨rfl, rfl⟩
theorem Laws.SlotWords.txflush (a b : R5) (all : Bool) : Laws.SlotWords.Statement (.txflush a b all) := ⟨rfl, rfl⟩
theorem Laws.SlotWords.txflushP (a b : R5) (all : Bool) : Laws.SlotWords.Statement (.txflushP a b all) := ⟨rfl, rfl⟩
theorem Laws.SlotWords.rxpost (a b : R5) (set : BitVec 4) (ne : Bool) : Laws.SlotWords.Statement (.rxpost a b set ne) := ⟨rfl, rfl⟩
theorem Laws.SlotWords.chsend (a : R5) (set : BitVec 4) (ne : Bool) : Laws.SlotWords.Statement (.chsend a set ne) := ⟨rfl, rfl⟩
theorem Laws.SlotWords.chrecv (a : R5) (set : BitVec 4) (ne : Bool) : Laws.SlotWords.Statement (.chrecv a set ne) := ⟨rfl, rfl⟩
theorem Laws.SlotWords.trig (a b : R5) (set : BitVec 4) (opk : BitVec 3) : Laws.SlotWords.Statement (.trig a b set opk) := ⟨rfl, rfl⟩
theorem Laws.SlotWords.ctradd (a : R5) (c : BitVec 3) : Laws.SlotWords.Statement (.ctradd a c) := ⟨rfl, rfl⟩
theorem Laws.SlotWords.ctrsnap (a b : R5) : Laws.SlotWords.Statement (.ctrsnap a b) := ⟨rfl, rfl⟩
theorem Laws.SlotWords.ntr : Laws.SlotWords.Statement .ntr := ⟨rfl, rfl⟩
theorem Laws.SlotWords.task (a : R5) : Laws.SlotWords.Statement (.task a) := ⟨rfl, rfl⟩
theorem Laws.SlotWords.taskDone (a b : R5) : Laws.SlotWords.Statement (.taskDone a b) := ⟨rfl, rfl⟩
theorem Laws.SlotWords.sync (level : BitVec 3) : Laws.SlotWords.Statement (.sync level) := ⟨rfl, rfl⟩
theorem Laws.SlotWords.phase (p : BitVec 4) : Laws.SlotWords.Statement (.phase p) := ⟨rfl, rfl⟩
theorem Laws.SlotWords.stepb (b : BitVec 8) (tag : BitVec 16) : Laws.SlotWords.Statement (.stepb b tag) := ⟨rfl, rfl⟩
theorem Laws.SlotWords.stepbRp (b : BitVec 8) (tag : BitVec 16) : Laws.SlotWords.Statement (.stepbRp b tag) := ⟨rfl, rfl⟩
theorem Laws.SlotWords.stepe (b : BitVec 8) (tag : BitVec 16) : Laws.SlotWords.Statement (.stepe b tag) := ⟨rfl, rfl⟩
theorem Laws.SlotWords.digest (d a b : R5) (q : BitVec 2) (evt buf : Bool) : Laws.SlotWords.Statement (.digest d a b q evt buf) := ⟨rfl, rfl⟩
theorem Laws.SlotWords.digcmp (a b : R5) : Laws.SlotWords.Statement (.digcmp a b) := ⟨rfl, rfl⟩
theorem Laws.SlotWords.prof (a : R5) (n : BitVec 12) : Laws.SlotWords.Statement (.prof a n) := ⟨rfl, rfl⟩
theorem Laws.SlotWords.evpost (c : BitVec 2) (a : R5) (tag : BitVec 12) : Laws.SlotWords.Statement (.evpost c a tag) := ⟨rfl, rfl⟩
theorem Laws.SlotWords.nop : Laws.SlotWords.Statement .nop := ⟨rfl, rfl⟩
theorem Laws.SlotWords.bra (dr : Bool) (off : BitVec 21) : Laws.SlotWords.Statement (.bra dr off) := ⟨rfl, rfl⟩
theorem Laws.SlotWords.bz (dr : Bool) (f : SFile) (r : R5) (off : BitVec 15) : Laws.SlotWords.Statement (.bz dr f r off) := ⟨rfl, rfl⟩
theorem Laws.SlotWords.bnz (dr : Bool) (f : SFile) (r : R5) (off : BitVec 15) : Laws.SlotWords.Statement (.bnz dr f r off) := ⟨rfl, rfl⟩
theorem Laws.SlotWords.bkall (dr : Bool) (k : BitVec 3) (off : BitVec 18) : Laws.SlotWords.Statement (.bkall dr k off) := ⟨rfl, rfl⟩
theorem Laws.SlotWords.bknone (dr : Bool) (k : BitVec 3) (off : BitVec 18) : Laws.SlotWords.Statement (.bknone dr k off) := ⟨rfl, rfl⟩
theorem Laws.SlotWords.call (dr : Bool) (off : BitVec 21) : Laws.SlotWords.Statement (.call dr off) := ⟨rfl, rfl⟩
theorem Laws.SlotWords.ret (dr : Bool) : Laws.SlotWords.Statement (.ret dr) := ⟨rfl, rfl⟩
theorem Laws.SlotWords.loop (c : LoopCnt) (stop : BitVec 10) : Laws.SlotWords.Statement (.loop c stop) := by
  cases c <;> exact ⟨rfl, rfl⟩
theorem Laws.SlotWords.loopx (count : BitVec 31) (stop : BitVec 21) : Laws.SlotWords.Statement (.loopx count stop) := ⟨rfl, rfl⟩
theorem Laws.SlotWords.halt : Laws.SlotWords.Statement .halt := ⟨rfl, rfl⟩
theorem Laws.SlotWords.trap (code : BitVec 16) : Laws.SlotWords.Statement (.trap code) := ⟨rfl, rfl⟩
theorem Laws.SlotWords.rtt (dr : Bool) : Laws.SlotWords.Statement (.rtt dr) := ⟨rfl, rfl⟩
theorem Laws.SlotWords.brk (code : BitVec 16) : Laws.SlotWords.Statement (.brk code) := ⟨rfl, rfl⟩
theorem Laws.SlotWords.waitev (r : R5) : Laws.SlotWords.Statement (.waitev r) := ⟨rfl, rfl⟩
theorem Laws.SlotWords.yield : Laws.SlotWords.Statement .yield := ⟨rfl, rfl⟩
theorem Laws.SlotWords.prio (c : BitVec 2) : Laws.SlotWords.Statement (.prio c) := ⟨rfl, rfl⟩
theorem Laws.SlotWords.ifence : Laws.SlotWords.Statement .ifence := ⟨rfl, rfl⟩
theorem Laws.SlotWords.issueSelect (core : Nat) : Laws.SlotWords.Statement (.issueSelect core) := ⟨rfl, rfl⟩
theorem Laws.SlotWords.stallSwitchCount (core : Nat) : Laws.SlotWords.Statement (.stallSwitchCount core) := ⟨rfl, rfl⟩
theorem Laws.SlotWords.priorityAging (core ctx : Nat) : Laws.SlotWords.Statement (.priorityAging core ctx) := ⟨rfl, rfl⟩
theorem Laws.SlotWords.fixedResultLand (core ctx : Nat) : Laws.SlotWords.Statement (.fixedResultLand core ctx) := ⟨rfl, rfl⟩
theorem Laws.SlotWords.scoreboardResultLand (core ctx i : Nat) : Laws.SlotWords.Statement (.scoreboardResultLand core ctx i) := ⟨rfl, rfl⟩
theorem Laws.SlotWords.deferredTrapSuspend (core ctx : Nat) : Laws.SlotWords.Statement (.deferredTrapSuspend core ctx) := ⟨rfl, rfl⟩
theorem Laws.SlotWords.pageWalkComplete (core asid : Nat) (va : W64) : Laws.SlotWords.Statement (.pageWalkComplete core asid va) := ⟨rfl, rfl⟩
theorem Laws.SlotWords.releaseGo (trid : Nat) : Laws.SlotWords.Statement (.releaseGo trid) := ⟨rfl, rfl⟩
theorem Laws.SlotWords.shootdownComplete (die : Nat) : Laws.SlotWords.Statement (.shootdownComplete die) := ⟨rfl, rfl⟩
theorem Laws.SlotWords.copyTransfer (core : Nat) : Laws.SlotWords.Statement (.copyTransfer core) := ⟨rfl, rfl⟩
theorem Laws.SlotWords.copyEntryComplete (core ctx q : Nat) : Laws.SlotWords.Statement (.copyEntryComplete core ctx q) := ⟨rfl, rfl⟩
theorem Laws.SlotWords.qfenceComplete (core ctx q : Nat) : Laws.SlotWords.Statement (.qfenceComplete core ctx q) := ⟨rfl, rfl⟩
theorem Laws.SlotWords.mmagStart (core press : Nat) : Laws.SlotWords.Statement (.mmagStart core press) := ⟨rfl, rfl⟩
theorem Laws.SlotWords.pressResultInPlace (core press : Nat) : Laws.SlotWords.Statement (.pressResultInPlace core press) := ⟨rfl, rfl⟩
theorem Laws.SlotWords.mzeroComplete (core : Nat) : Laws.SlotWords.Statement (.mzeroComplete core) := ⟨rfl, rfl⟩
theorem Laws.SlotWords.mcvtComplete (core : Nat) : Laws.SlotWords.Statement (.mcvtComplete core) := ⟨rfl, rfl⟩
theorem Laws.SlotWords.rxGload (die : Nat) (p : Packet) : Laws.SlotWords.Statement (.rxGload die p) := ⟨rfl, rfl⟩
theorem Laws.SlotWords.rxGstore (die : Nat) (p : Packet) : Laws.SlotWords.Statement (.rxGstore die p) := ⟨rfl, rfl⟩
theorem Laws.SlotWords.rxGatom (die : Nat) (p : Packet) : Laws.SlotWords.Statement (.rxGatom die p) := ⟨rfl, rfl⟩
theorem Laws.SlotWords.rxGresp (die : Nat) (p : Packet) : Laws.SlotWords.Statement (.rxGresp die p) := ⟨rfl, rfl⟩
theorem Laws.SlotWords.transportOpComplete (die opid : Nat) : Laws.SlotWords.Statement (.transportOpComplete die opid) := ⟨rfl, rfl⟩
theorem Laws.SlotWords.tcWatchdog (die : Nat) : Laws.SlotWords.Statement (.tcWatchdog die) := ⟨rfl, rfl⟩
theorem Laws.SlotWords.tcTimerExpiry (die t : Nat) : Laws.SlotWords.Statement (.tcTimerExpiry die t) := ⟨rfl, rfl⟩
theorem Laws.SlotWords.tcAdd (d a b : R5) : Laws.SlotWords.Statement (.tcAdd d a b) := ⟨rfl, rfl⟩
theorem Laws.SlotWords.tcSub (d a b : R5) : Laws.SlotWords.Statement (.tcSub d a b) := ⟨rfl, rfl⟩
theorem Laws.SlotWords.tcAnd (d a b : R5) : Laws.SlotWords.Statement (.tcAnd d a b) := ⟨rfl, rfl⟩
theorem Laws.SlotWords.tcOr (d a b : R5) : Laws.SlotWords.Statement (.tcOr d a b) := ⟨rfl, rfl⟩
theorem Laws.SlotWords.tcXor (d a b : R5) : Laws.SlotWords.Statement (.tcXor d a b) := ⟨rfl, rfl⟩
theorem Laws.SlotWords.tcShl (d a b : R5) : Laws.SlotWords.Statement (.tcShl d a b) := ⟨rfl, rfl⟩
theorem Laws.SlotWords.tcShr (d a b : R5) : Laws.SlotWords.Statement (.tcShr d a b) := ⟨rfl, rfl⟩
theorem Laws.SlotWords.tcSltu (d a b : R5) : Laws.SlotWords.Statement (.tcSltu d a b) := ⟨rfl, rfl⟩
theorem Laws.SlotWords.tcAddi (d a : R5) (imm : BitVec 16) : Laws.SlotWords.Statement (.tcAddi d a imm) := ⟨rfl, rfl⟩
theorem Laws.SlotWords.tcAndi (d a : R5) (imm : BitVec 16) : Laws.SlotWords.Statement (.tcAndi d a imm) := ⟨rfl, rfl⟩
theorem Laws.SlotWords.tcShli (d a : R5) (sh : BitVec 6) : Laws.SlotWords.Statement (.tcShli d a sh) := ⟨rfl, rfl⟩
theorem Laws.SlotWords.tcShri (d a : R5) (sh : BitVec 6) : Laws.SlotWords.Statement (.tcShri d a sh) := ⟨rfl, rfl⟩
theorem Laws.SlotWords.tcLi (d : R5) (imm : BitVec 16) : Laws.SlotWords.Statement (.tcLi d imm) := ⟨rfl, rfl⟩
theorem Laws.SlotWords.tcLis (d : R5) (imm : BitVec 16) : Laws.SlotWords.Statement (.tcLis d imm) := ⟨rfl, rfl⟩
theorem Laws.SlotWords.tcLds (d a : R5) (imm : BitVec 16) : Laws.SlotWords.Statement (.tcLds d a imm) := ⟨rfl, rfl⟩
theorem Laws.SlotWords.tcSts (d a : R5) (imm : BitVec 16) : Laws.SlotWords.Statement (.tcSts d a imm) := ⟨rfl, rfl⟩
theorem Laws.SlotWords.tcLde (d : R5) (imm : BitVec 16) : Laws.SlotWords.Statement (.tcLde d imm) := ⟨rfl, rfl⟩
theorem Laws.SlotWords.tcLdp (d : R5) (imm : BitVec 16) : Laws.SlotWords.Statement (.tcLdp d imm) := ⟨rfl, rfl⟩
theorem Laws.SlotWords.tcStp (d : R5) (imm : BitVec 16) : Laws.SlotWords.Statement (.tcStp d imm) := ⟨rfl, rfl⟩
theorem Laws.SlotWords.tcBeq (a b : R5) (off : BitVec 16) : Laws.SlotWords.Statement (.tcBeq a b off) := ⟨rfl, rfl⟩
theorem Laws.SlotWords.tcBne (a b : R5) (off : BitVec 16) : Laws.SlotWords.Statement (.tcBne a b off) := ⟨rfl, rfl⟩
theorem Laws.SlotWords.tcBltu (a b : R5) (off : BitVec 16) : Laws.SlotWords.Statement (.tcBltu a b off) := ⟨rfl, rfl⟩
theorem Laws.SlotWords.tcJmp (off : BitVec 26) : Laws.SlotWords.Statement (.tcJmp off) := ⟨rfl, rfl⟩
theorem Laws.SlotWords.tcCall (off : BitVec 26) : Laws.SlotWords.Statement (.tcCall off) := ⟨rfl, rfl⟩
theorem Laws.SlotWords.tcRet : Laws.SlotWords.Statement .tcRet := ⟨rfl, rfl⟩
theorem Laws.SlotWords.tcWaite (d : R5) : Laws.SlotWords.Statement (.tcWaite d) := ⟨rfl, rfl⟩
theorem Laws.SlotWords.tcResend (d a b : R5) : Laws.SlotWords.Statement (.tcResend d a b) := ⟨rfl, rfl⟩
theorem Laws.SlotWords.tcAck (d : R5) (apply : Bool) : Laws.SlotWords.Statement (.tcAck d apply) := ⟨rfl, rfl⟩
theorem Laws.SlotWords.tcNack (d : R5) (noTarget : Bool) : Laws.SlotWords.Statement (.tcNack d noTarget) := ⟨rfl, rfl⟩
theorem Laws.SlotWords.tcSetpath (a b : R5) : Laws.SlotWords.Statement (.tcSetpath a b) := ⟨rfl, rfl⟩
theorem Laws.SlotWords.tcPathdown (a b : R5) : Laws.SlotWords.Statement (.tcPathdown a b) := ⟨rfl, rfl⟩
theorem Laws.SlotWords.tcSetwin (a b : R5) : Laws.SlotWords.Statement (.tcSetwin a b) := ⟨rfl, rfl⟩
theorem Laws.SlotWords.tcTmarm (a b : R5) : Laws.SlotWords.Statement (.tcTmarm a b) := ⟨rfl, rfl⟩
theorem Laws.SlotWords.tcTmcan (d a : R5) : Laws.SlotWords.Statement (.tcTmcan d a) := ⟨rfl, rfl⟩
theorem Laws.SlotWords.tcPost (d a b : R5) : Laws.SlotWords.Statement (.tcPost d a b) := ⟨rfl, rfl⟩
theorem Laws.SlotWords.tcHalt : Laws.SlotWords.Statement .tcHalt := ⟨rfl, rfl⟩
theorem Laws.SlotWords.stepbEvaluation (die b : Nat) : Laws.SlotWords.Statement (.stepbEvaluation die b) := ⟨rfl, rfl⟩
theorem Laws.SlotWords.stepeClose (die b : Nat) : Laws.SlotWords.Statement (.stepeClose die b) := ⟨rfl, rfl⟩
theorem Laws.SlotWords.ntrAnswer (core ctx : Nat) : Laws.SlotWords.Statement (.ntrAnswer core ctx) := ⟨rfl, rfl⟩
theorem Laws.SlotWords.taskSequencerDispatch (clu : Nat) : Laws.SlotWords.Statement (.taskSequencerDispatch clu) := ⟨rfl, rfl⟩
theorem Laws.SlotWords.taskEnd (core ctx : Nat) : Laws.SlotWords.Statement (.taskEnd core ctx) := ⟨rfl, rfl⟩
theorem Laws.SlotWords.syncOpen (core ctx : Nat) : Laws.SlotWords.Statement (.syncOpen core ctx) := ⟨rfl, rfl⟩
theorem Laws.SlotWords.digcmpResolve (core ctx : Nat) : Laws.SlotWords.Statement (.digcmpResolve core ctx) := ⟨rfl, rfl⟩
theorem Laws.SlotWords.launchPacket (q : Nat) : Laws.SlotWords.Statement (.launchPacket q) := ⟨rfl, rfl⟩
theorem Laws.SlotWords.waitPacket (q : Nat) : Laws.SlotWords.Statement (.waitPacket q) := ⟨rfl, rfl⟩
theorem Laws.SlotWords.waitSatisfied (q : Nat) : Laws.SlotWords.Statement (.waitSatisfied q) := ⟨rfl, rfl⟩
theorem Laws.SlotWords.signalPacket (q : Nat) : Laws.SlotWords.Statement (.signalPacket q) := ⟨rfl, rfl⟩
theorem Laws.SlotWords.markPacket (q : Nat) : Laws.SlotWords.Statement (.markPacket q) := ⟨rfl, rfl⟩
theorem Laws.SlotWords.launchComplete (q : Nat) : Laws.SlotWords.Statement (.launchComplete q) := ⟨rfl, rfl⟩
theorem Laws.SlotWords.softpreBoundary (core ctx : Nat) : Laws.SlotWords.Statement (.softpreBoundary core ctx) := ⟨rfl, rfl⟩
theorem Laws.SlotWords.softpreTimeout (core ctx : Nat) : Laws.SlotWords.Statement (.softpreTimeout core ctx) := ⟨rfl, rfl⟩
theorem Laws.SlotWords.biasHoldExpiry (page : Nat) : Laws.SlotWords.Statement (.biasHoldExpiry page) := ⟨rfl, rfl⟩
theorem Laws.SlotWords.registerWrite (r : DevReg) (v : W64) : Laws.SlotWords.Statement (.registerWrite r v) := ⟨rfl, rfl⟩
theorem Laws.SlotWords.pageMapped (asid : Nat) (svc : PageSvc) : Laws.SlotWords.Statement (.pageMapped asid svc) := ⟨rfl, rfl⟩
theorem Laws.SlotWords.pageRequestDeclined (asid : Nat) (va : W64) : Laws.SlotWords.Statement (.pageRequestDeclined asid va) := ⟨rfl, rfl⟩
theorem Laws.SlotWords.shootdown (die : Nat) (w0 w1 w2 : W64) : Laws.SlotWords.Statement (.shootdown die w0 w1 w2) := ⟨rfl, rfl⟩
theorem Laws.SlotWords.caskmissClear (clu : Nat) : Laws.SlotWords.Statement (.caskmissClear clu) := ⟨rfl, rfl⟩
theorem Laws.SlotWords.pressSelfCheck (core press : Nat) (pass : Bool) : Laws.SlotWords.Statement (.pressSelfCheck core press pass) := ⟨rfl, rfl⟩
theorem Laws.SlotWords.rxPlace (die : Nat) (p : Packet) : Laws.SlotWords.Statement (.rxPlace die p) := ⟨rfl, rfl⟩
theorem Laws.SlotWords.rxReduce (die : Nat) (p : Packet) : Laws.SlotWords.Statement (.rxReduce die p) := ⟨rfl, rfl⟩
theorem Laws.SlotWords.rxChan (die : Nat) (p : Packet) : Laws.SlotWords.Statement (.rxChan die p) := ⟨rfl, rfl⟩
theorem Laws.SlotWords.rxFlushp (die : Nat) (p : Packet) : Laws.SlotWords.Statement (.rxFlushp die p) := ⟨rfl, rfl⟩
theorem Laws.SlotWords.messageHeaderMatch (die : Nat) (h : MsgHdr) : Laws.SlotWords.Statement (.messageHeaderMatch die h) := ⟨rfl, rfl⟩
theorem Laws.SlotWords.channelCredit (asid chan peer : Nat) : Laws.SlotWords.Statement (.channelCredit asid chan peer) := ⟨rfl, rfl⟩
theorem Laws.SlotWords.collBrokenNotice (asid group : Nat) : Laws.SlotWords.Statement (.collBrokenNotice asid group) := ⟨rfl, rfl⟩
theorem Laws.SlotWords.packetAck (die flow : Nat) (psns bytes : List Nat) (marks : List Bool) (rtt : Nat) : Laws.SlotWords.Statement (.packetAck die flow psns bytes marks rtt) := ⟨rfl, rfl⟩
theorem Laws.SlotWords.packetNack (die flow psn : Nat) (code : NackCode) : Laws.SlotWords.Statement (.packetNack die flow psn code) := ⟨rfl, rfl⟩
theorem Laws.SlotWords.retryBackoffExpiry (die flow psn : Nat) : Laws.SlotWords.Statement (.retryBackoffExpiry die flow psn) := ⟨rfl, rfl⟩
theorem Laws.SlotWords.rtoExpiry (die flow : Nat) : Laws.SlotWords.Statement (.rtoExpiry die flow) := ⟨rfl, rfl⟩
theorem Laws.SlotWords.pathProbe (die : Nat) : Laws.SlotWords.Statement (.pathProbe die) := ⟨rfl, rfl⟩
theorem Laws.SlotWords.probeAnswer (die peer slot rtt : Nat) : Laws.SlotWords.Statement (.probeAnswer die peer slot rtt) := ⟨rfl, rfl⟩
theorem Laws.SlotWords.portLinkLoss (die port : Nat) : Laws.SlotWords.Statement (.portLinkLoss die port) := ⟨rfl, rfl⟩
theorem Laws.SlotWords.txdstatClr (die : Nat) : Laws.SlotWords.Statement (.txdstatClr die) := ⟨rfl, rfl⟩
theorem Laws.SlotWords.tcStart (die : Nat) : Laws.SlotWords.Statement (.tcStart die) := ⟨rfl, rfl⟩
theorem Laws.SlotWords.tcStop (die : Nat) : Laws.SlotWords.Statement (.tcStop die) := ⟨rfl, rfl⟩
theorem Laws.SlotWords.tcClrreg (die : Nat) : Laws.SlotWords.Statement (.tcClrreg die) := ⟨rfl, rfl⟩
theorem Laws.SlotWords.tcMail (die : Nat) (w0 w1 : W64) : Laws.SlotWords.Statement (.tcMail die w0 w1) := ⟨rfl, rfl⟩
theorem Laws.SlotWords.blockEntryWrite (die b : Nat) (words : List W64) : Laws.SlotWords.Statement (.blockEntryWrite die b words) := ⟨rfl, rfl⟩
theorem Laws.SlotWords.doorbellWrite (vi q : Nat) (w : W64) : Laws.SlotWords.Statement (.doorbellWrite vi q w) := ⟨rfl, rfl⟩
theorem Laws.SlotWords.queueRegister (vi q die : Nat) (qcb : W64) : Laws.SlotWords.Statement (.queueRegister vi q die qcb) := ⟨rfl, rfl⟩
theorem Laws.SlotWords.dispatchNew (die : Nat) (w0 rec logidx : W64) (save : SaveTo) (donep : W64) : Laws.SlotWords.Statement (.dispatchNew die w0 rec logidx save donep) := ⟨rfl, rfl⟩
theorem Laws.SlotWords.dispatchResume (die : Nat) (w0 : W64) (save : SaveTo) (donep : W64) : Laws.SlotWords.Statement (.dispatchResume die w0 save donep) := ⟨rfl, rfl⟩
theorem Laws.SlotWords.dispatchSoftpre (die : Nat) (w0 : W64) (save : SaveTo) (donep : W64) : Laws.SlotWords.Statement (.dispatchSoftpre die w0 save donep) := ⟨rfl, rfl⟩
theorem Laws.SlotWords.dispatchHardpre (die : Nat) (w0 save donep : W64) (keep : Bool) : Laws.SlotWords.Statement (.dispatchHardpre die w0 save donep keep) := ⟨rfl, rfl⟩
theorem Laws.SlotWords.dispatchRemap (die : Nat) (w0 donep w5 : W64) : Laws.SlotWords.Statement (.dispatchRemap die w0 donep w5) := ⟨rfl, rfl⟩
theorem Laws.SlotWords.dispatchWalk (die : Nat) (w0 save donep : W64) : Laws.SlotWords.Statement (.dispatchWalk die w0 save donep) := ⟨rfl, rfl⟩
theorem Laws.SlotWords.traceTailWrite (die : Nat) (v : W64) : Laws.SlotWords.Statement (.traceTailWrite die v) := ⟨rfl, rfl⟩
theorem Laws.SlotWords.hostHdmRequest (addr : Nat) (r : HostReq) : Laws.SlotWords.Statement (.hostHdmRequest addr r) := ⟨rfl, rfl⟩
theorem Laws.SlotWords.bisnpResponse (pa : Nat) (dirty : List Byte) : Laws.SlotWords.Statement (.bisnpResponse pa dirty) := ⟨rfl, rfl⟩
theorem Laws.SlotWords.hostSnoop (line : Nat) (k : Snoop) : Laws.SlotWords.Statement (.hostSnoop line k) := ⟨rfl, rfl⟩
theorem Laws.SlotWords.hostCompletion (core ctx : Nat) (va : W64) (store : Bool) (c : HostCpl) : Laws.SlotWords.Statement (.hostCompletion core ctx va store c) := ⟨rfl, rfl⟩
theorem Laws.SlotWords.linkDown : Laws.SlotWords.Statement .linkDown := ⟨rfl, rfl⟩
theorem Laws.SlotWords.hlctlRearm : Laws.SlotWords.Statement .hlctlRearm := ⟨rfl, rfl⟩
theorem Laws.SlotWords.eccErrorDetected (site : EccSite) (uc : Bool) (syndrome : W64) : Laws.SlotWords.Statement (.eccErrorDetected site uc syndrome) := ⟨rfl, rfl⟩
theorem Laws.SlotWords.hbmRowRemap (stack chan row spare : Nat) : Laws.SlotWords.Statement (.hbmRowRemap stack chan row spare) := ⟨rfl, rfl⟩
theorem Laws.SlotWords.hbmChannelSpare (stack chan spare : Nat) : Laws.SlotWords.Statement (.hbmChannelSpare stack chan spare) := ⟨rfl, rfl⟩
theorem Laws.SlotWords.coldReset : Laws.SlotWords.Statement .coldReset := ⟨rfl, rfl⟩
theorem Laws.SlotWords.warmReset : Laws.SlotWords.Statement .warmReset := ⟨rfl, rfl⟩
theorem Laws.SlotWords.fwReload (w : W64) : Laws.SlotWords.Statement (.fwReload w) := ⟨rfl, rfl⟩
theorem Laws.SlotWords.fwfloorSet (w : W64) : Laws.SlotWords.Statement (.fwfloorSet w) := ⟨rfl, rfl⟩
theorem Laws.SlotWords.powerStateRequest (st : BitVec 2) : Laws.SlotWords.Statement (.powerStateRequest st) := ⟨rfl, rfl⟩
theorem Laws.SlotWords.powerGovernor (avg gate : Nat) : Laws.SlotWords.Statement (.powerGovernor avg gate) := ⟨rfl, rfl⟩
theorem Laws.SlotWords.telpwrClearPeak : Laws.SlotWords.Statement .telpwrClearPeak := ⟨rfl, rfl⟩
theorem Laws.SlotWords.thermalGate (die temp : Nat) : Laws.SlotWords.Statement (.thermalGate die temp) := ⟨rfl, rfl⟩
theorem Laws.SlotWords.thermalGateRelease (t0 t1 t2 t3 : Nat) : Laws.SlotWords.Statement (.thermalGateRelease t0 t1 t2 t3) := ⟨rfl, rfl⟩
theorem Laws.SlotWords.thermalTrip (die temp : Nat) : Laws.SlotWords.Statement (.thermalTrip die temp) := ⟨rfl, rfl⟩
theorem Laws.SlotWords.rmaReadRequest (die : Nat) (job src : Nat) (off len : Nat) (rkey : Nat) : Laws.SlotWords.Statement (.rmaReadRequest die job src off len rkey) := ⟨rfl, rfl⟩
theorem Laws.SlotWords.rmaReadResponse (die opid : Nat) (bytes : List Byte) (fkind : Option Nat) : Laws.SlotWords.Statement (.rmaReadResponse die opid bytes fkind) := ⟨rfl, rfl⟩
theorem Laws.SlotWords.remotePageMappedReport (core stamp trid : Nat) : Laws.SlotWords.Statement (.remotePageMappedReport core stamp trid) := ⟨rfl, rfl⟩
theorem Laws.SlotWords.collGroupReset (asid group : Nat) : Laws.SlotWords.Statement (.collGroupReset asid group) := ⟨rfl, rfl⟩
theorem Laws.SlotWords.taskEndedByFirmware (trid : Nat) : Laws.SlotWords.Statement (.taskEndedByFirmware trid) := ⟨rfl, rfl⟩
theorem Laws.SlotWords.asidRetire (asid : Nat) : Laws.SlotWords.Statement (.asidRetire asid) := ⟨rfl, rfl⟩
theorem Laws.SlotWords.hostLinkUp (cxl : Bool) : Laws.SlotWords.Statement (.hostLinkUp cxl) := ⟨rfl, rfl⟩
theorem Laws.SlotWords.portLinkUp (die port : Nat) : Laws.SlotWords.Statement (.portLinkUp die port) := ⟨rfl, rfl⟩
theorem Laws.SlotWords.powerLoss : Laws.SlotWords.Statement .powerLoss := ⟨rfl, rfl⟩
theorem Laws.SlotWords.fwReloadComplete (target : Nat) : Laws.SlotWords.Statement (.fwReloadComplete target) := ⟨rfl, rfl⟩

end Sys2Proof
end

