-- ==== Sys2Proof/Tests/Slice0.lean ====
section
/-! SUPPORT. Tests: ill-formed terms that WellFormed refuses, words written out from the spec's encodings, single steps, and for
each statement with hypotheses a state and operands that meet them. -/

namespace Sys2Proof

open Machine Claims

set_option Elab.async false

/-! ## Small states -/

/-- Context 0 of core 0. -/
def tw : At := ⟨0, 0⟩

/-- A task of context 0 of core 0, in ASID 5. -/
def tTask : Task :=
  { det := false, sup := false, lren := true, ker := 4, codebase := 0x1000, stream := 1, nest := false, dyn := false, ben := false,
    rowloop := 0, block := 0, order := 0, n := [], cgrp := 0, save := 0x400000, queue := none, asid := 5, core := 0, ctx := 0,
    resident := false, saved := false, gang := none, vi := 0, die := 0, writes := [], waitSync := none, ecc := false, counted := false,
    dynKey := 0, extents := [], phases := [], holds := [], owed := [], launch := ⟨[], [], [], []⟩,
    leesAway := [], maskAway := [], mmagAway := [], trapAway := [], keep := false, evqAway := 0 }

/-- A Ready context that runs it: x1 = 7, x2 = 3, x4 = 1, a1 = 0x10100, a2 = 0x103, k1 = 1 and a map of 64 KiB from 0. -/
def tCtx : Ctx :=
  { Ctx.reset with
    trid := some 77
    regs := { x := [(1, 7), (2, 3), (4, 1)], y := [(1, 9)], v := [], k := [(1, 1)], a := [(1, 0x10100), (2, 0x103)], e := [], tl := [] }
    sys := { Sys.reset with asid := 5, tvec := 0x8000, taskid := 77, codebase := 0x1000, codelimit := 0x100000 }
    sched := { Sched.reset with run := .ready, readyFor := 3 }
    pipe := { Pipe.reset with pc := 0x1010, count := 10 } }

/-- A device whose core 0 runs a context. -/
def tRun (c : Ctx) : State :=
  { State.reset with
    cores := [(0, { Core.reset with ctxs := [(0, c)], holder := some 0 })]
    focus := .core 0, tasks := [(77, tTask)], board := { Board.reset with boot := 6 } }

/-- The machine in which context 0 of core 0 is quiet. -/
def tQuiet : State := tRun tCtx

/-- The same with results in flight, one of them due. -/
def tFlying : State := tRun { tCtx with pipe := { tCtx.pipe with
  inflight := [⟨.x, 3, wholeMask, 55, 10⟩, ⟨.y, 6, wholeMask, 77, 13⟩] } }

/-- What a step answers, if it answers a next state. -/
def okState : Host.Outcome State Fault Refusal → Option State
  | .next t => some t
  | _ => none

theorem test_quiet : Quiet tQuiet tw := by unfold Quiet Free; decide
theorem test_free : Free tFlying tw ∧ ¬ Quiet tFlying tw := by unfold Quiet Free; decide

/-! ## Ill-formed terms (R222, R224 to R226) -/

theorem test_illFormed_scalar : ([
    .shl .x 1 1 (.imm 64), .bfx .x 1 1 60 10, .bfi .y 1 1 63 1, .li .x 1 true 2 0, .mfs .x 1 11, .mts .x 1 0,
    .cpy .sx 1 0 1 0 false, .cpy .ls 16 0 1 0 false, .cpy .sy 1 6 0 0 false, .cpy .sx 1 1 1 1 false] : List Instr).all
    (fun i => !wellFormed i) = true := by decide +kernel

theorem test_illFormed_vector : ([
    .vadd ⟨1, 1, 2, 0, 3⟩ none, .vadd ⟨1, 1, 2, 0, 0⟩ (some ⟨5, false, 0⟩), .vadd ⟨1, 1, 2, 0, 10⟩ (some ⟨0, true, 0⟩),
    .vexp2 ⟨1, 1, 2, 0, 0⟩ none, .vand ⟨1, 1, 2, 0, 0⟩, .vcvt ⟨1, 1, 10, 0, 0⟩ none, .vgauss ⟨1, 1, 2, 0, 1⟩, .pack ⟨1, 1, 2, 0, 0⟩ none,
    .unpack ⟨1, 1, 2, 0, 0⟩, .cpye ⟨1, 8, 0, 0, 0⟩, .swsplit ⟨1, 1, 0, 3, 11⟩] : List Instr).all (fun i => !wellFormed i) = true := by
  decide +kernel

theorem test_illFormed_memory : ([
    .ld .x .d64 ⟨1, 1, 6, 1, 0⟩, .ld .x .d64 ⟨1, 1, 0, 2, 0⟩, .st .x .b64 ⟨1, 1, 0, 1, 0⟩, .atadd ⟨1, 1, 0, 3, 2, false, 0⟩,
    .atcas2 ⟨1, 1, 0, 0, 2, false, 0⟩, .atcas ⟨0, 1, 0, 0, 2, false, 0⟩, .fence 6 0, .fence 0 3, .cflush 1 1 6, .pref 1 3 0, .amov 16 1 0,
    .mma ⟨false, true, false, true, 0, 0, false⟩, .mma ⟨false, false, false, false, 0, 2, false⟩] : List Instr).all
    (fun i => !wellFormed i) = true := by decide +kernel

theorem test_illFormed_control : ([
    .ewr 1 0xFFF, .qfence 1 0 false, .rwait 1 0 1, .txflush 1 1 true, .trig 1 2 0 5, .waitt 30, .waitev 1] : List Instr).all
    (fun i => !wellFormed i) = true := by decide +kernel

theorem test_illFormed_events : ([
    .issueSelect 512, .priorityAging 0 4, .mmagStart 0 2, .tcTimerExpiry 0 256, .shootdownComplete 4, .launchPacket 32768,
    .portLinkLoss 0 18, .hbmRowRemap 12 0 0 0, .registerWrite (.vicfg 64 0) 0, .pageMapped 1024 (.mapped 0), .probeAnswer 0 0 64 0,
    .taskSequencerDispatch 8, .channelCredit 0 256 0, .eccErrorDetected (.hbm (2 ^ 60)) true 0] : List Instr).all
    (fun i => !wellFormed i) = true := by decide +kernel

theorem test_wellFormed : ([
    .shl .x 1 1 (.imm 63), .li .x 1 true 1 0, .vadd ⟨1, 1, 2, 0, 0⟩ (some ⟨4, false, 0⟩), .cpye ⟨1, 7, 0, 0, 0⟩,
    .ld .x .d64 ⟨1, 1, 5, 1, 0⟩, .bld ⟨1, 1, 3, true, 0⟩, .fence 5 2, .amov 15 1 0, .waitt 29, .pack ⟨1, 1, 2, 0, 1⟩ none,
    .portLinkLoss 3 17, .probeAnswer 0 8191 63 0] : List Instr).all wellFormed = true := by decide +kernel

/-! ## Words written out from the encodings of the spec -/

/-- R240, Table 10-4: add x3, x3, x4 alone: STOP, lane 000, opcode 000001, d 00011, a 00011, b 00100. -/
theorem test_decode_add : decodeBundle [0b1_000_000001_00011_00011_00100_0000000] = some [⟨0, 1, some (.add .x 3 3 (.reg 4))⟩] := by
  decide +kernel
/-- Table 10-4: add y1, y1, 1: the I form, opcode 100000 in lane 001. -/
theorem test_decode_addi : decodeBundle [0b1_001_100000_00001_00001_000000000001] = some [⟨1, 1, some (.add .y 1 1 (.imm 1))⟩] := by
  decide +kernel
/-- R281: the example of a Gaussian draw under key k1. -/
theorem test_decode_vgauss : decodeBundle [0xAC080110] = some [⟨2, 1, some (.vgauss ⟨4, 0, 2, 1, 0⟩)⟩] := by decide +kernel
/-- Table 10-10: zip of 8-bit elements: lane 011, opcode 010011, vd, va, vb, SUB 1, format 0111. -/
theorem test_decode_zip : decodeBundle [0b1_011_010011_00001_00010_00011_001_0111] = some [⟨3, 1, some (.zip ⟨1, 2, 3, 1, 7⟩)⟩] := by
  decide +kernel
/-- R290: ld of 64 bits, acquire, scope dev. -/
theorem test_decode_ld : decodeBundle [0xC1C85100] = some [⟨4, 1, some (.ld .x .d64 ⟨4, 2, 4, 1, 0⟩)⟩] := by decide +kernel
/-- Table 08-5: MCVT of the all-zero fields but DFMT. -/
theorem test_decode_mcvt : (decodeBundle [0xD1040000]).isSome = true := by decide +kernel
/-- R306: ewr 0x43, x5. -/
theorem test_decode_ewr : decodeBundle [0xE0405043] = some [⟨6, 1, some (.ewr 5 0x43)⟩] := by decide +kernel
/-- R255: loop 3, end 3. -/
theorem test_decode_loop : decodeBundle [0xF2500C03] = some [⟨7, 1, some (.loop (.imm 3) 3)⟩] := by decide +kernel
/-- R260: NOP. -/
theorem test_decode_nop : decodeBundle [0xF0400000] = some [⟨7, 1, some .nop⟩] := by decide +kernel
/-- R228: a word of zeros names no instruction. -/
theorem test_decode_zero : decodeBundle [0x80000000] = some [⟨0, 1, none⟩] := by decide +kernel
/-- R166, Table 07-10: add t1, t2, t3 is opcode 000001, d, a, b; a nonzero bit below them is no instruction. -/
theorem test_decode_tc : decodeTc 0b000001_00001_00010_00011_00000000000 = some (.tcAdd 1 2 3) ∧
    decodeTc 0b000001_00001_00010_00011_00000000001 = none ∧ decodeTableWord 32 0x68600002 = some (.tcLde 3 2) := by decide +kernel
/-- R167: the first instruction after reset that the loaded word gives. -/
theorem test_first_step : ((okState (step (State.reset.withFetchWord 32 0b100001_00000_00000_0000000000000101))).map fun t =>
    (t.die 0).tc.pc) = some 1 := by decide +kernel
theorem test_first_addi : ((okState (step (State.reset.withFetchWord 32 0b010000_00001_00000_0000000000000101))).map fun t =>
    tget 0 (t.die 0).tc.t 1) = some 5 := by decide +kernel

/-! ## States and operands that meet the hypotheses of the statements -/

/-- The registers that a bundle of tFlying reads. -/
def tRegs : Regs := ((tFlying.landed tw).ctx tw).regs

theorem test_witness_ScalarResults : Free tFlying tw ∧ ([
    .add .x 1 2 (.imm 0xFFF), .sub .y 0 1 1, .mul .x 3 1 (.reg 3), .mulh .x 1 2 2, .mulhu .x 1 2 2, .div .x 1 1 2, .divu .x 1 1 2,
    .rem .x 1 1 2, .and .x 1 2 (.imm 1), .or .x 1 2 (.imm 1), .xor .x 1 2 (.imm 1), .shl .x 1 2 (.reg 1), .shl .x 1 2 (.imm 63),
    .shr .x 1 2 (.reg 1), .shr .x 1 2 (.imm 63), .sar .x 1 2 (.reg 1), .sar .x 1 2 (.imm 63), .min .x 1 2 (.reg 1),
    .max .x 1 2 (.reg 1), .minu .x 1 2 (.reg 1), .maxu .x 1 2 (.reg 1), .seq .x 1 2 (.reg 1), .slt .x 1 2 (.reg 1),
    .sltu .x 1 2 (.reg 1), .sel .x 1 2 3 4, .clz .x 1 0, .popc .x 1 2, .bfx .x 1 2 60 3, .bfi .x 1 2 0 63, .addsh .x 1 2 3 63,
    .li .x 1 false 0xFFFF 0, .li .x 1 true 1 0] : List Instr).all (fun i => (scalarRule tRegs i).isSome) = true := by
  unfold Free; decide +kernel

theorem test_witness_MaskAndAddressResults : Free tFlying tw ∧ ([
    .kand 0 1 2, .kor 1 2 3, .kxor 7 1 1, .knot 1 0, .kpop 1 0, .amov 15 1 0x1FFF, .ainc 0 2 1] : List Instr).all
    (fun i => (maskAddrRule tRegs i).isSome) = true := by unfold Free; decide +kernel

/-- Rounding that no slot's extension gives. -/
def tQ : Rounding := tFlying.rounding tw none

theorem test_witness_ElementResults : Free tFlying tw ∧ ([
    .vadd ⟨1, 2, 3, 0, 0⟩ none, .vsub ⟨1, 2, 3, 1, 10⟩ none, .vmul ⟨1, 2, 3, 0, 8⟩ none, .vfma ⟨1, 2, 3, 0, 1⟩ none,
    .vfms ⟨1, 2, 3, 0, 2⟩ none, .vexp2 ⟨1, 2, 0, 0, 0⟩ none, .vlog2 ⟨1, 2, 0, 0, 1⟩ none, .vrcp ⟨1, 2, 0, 0, 0⟩ none,
    .vrsq ⟨1, 2, 0, 0, 2⟩ none, .vmax ⟨1, 2, 3, 0, 0⟩, .vmin ⟨1, 2, 3, 0, 9⟩, .vabs ⟨1, 2, 0, 0, 9⟩, .vneg ⟨1, 2, 0, 0, 0⟩,
    .vand ⟨1, 2, 3, 0, 9⟩, .vor ⟨1, 2, 3, 0, 9⟩, .vxor ⟨1, 2, 3, 0, 9⟩, .vnot ⟨1, 2, 0, 0, 9⟩, .vshl ⟨1, 2, 3, 0, 9⟩,
    .vshr ⟨1, 2, 3, 0, 9⟩, .vsar ⟨1, 2, 3, 0, 9⟩, .vbcast ⟨1, 2, 31, 0, 0⟩, .viota ⟨1, 0, 0, 0, 9⟩] : List Instr).all
    (fun i => (elementRule tQ tRegs i).isSome) = true := by unfold Free; decide +kernel

theorem test_witness_rounding : rndGood ⟨1, 2, 3, 0, 10⟩ (some ⟨4, false, 7⟩) ∧ rndGood ⟨1, 2, 3, 0, 0⟩ (some ⟨0, true, 7⟩) ∧
    rndGoodF ⟨1, 2, 3, 0, 10⟩ (some ⟨4, false, 7⟩) := by unfold rndGood rndGoodF; decide

theorem test_witness_WholeVectorResults : Free tFlying tw ∧ ([
    .vcmp ⟨25, 2, 3, 0, 0⟩, .vsel ⟨1, 2, 3, 1, 0⟩, .vcvt ⟨1, 2, 9, 0, 0⟩ none, .vreds ⟨1, 2, 0, 0, 10⟩ none, .vredm ⟨1, 2, 0, 0, 9⟩,
    .vscan ⟨1, 2, 0, 0, 0⟩ none, .vgauss ⟨1, 2, 3, 1, 0⟩, .vrand ⟨1, 2, 3, 1, 9⟩] : List Instr).all
    (fun i => (wholeRule tQ tRegs i).isSome) = true := by unfold Free; decide +kernel

theorem test_witness_FormatResults : Free tFlying tw ∧ ([
    .pack ⟨1, 2, 3, 0, 1⟩ none, .unpack ⟨1, 2, 1, 0, 1⟩, .vscale ⟨1, 2, 16, 6, 0⟩ none, .cpye ⟨1, 7, 0, 6, 0⟩, .bscale ⟨24, 2, 0, 0, 0⟩,
    .perm ⟨1, 2, 3, 0, 9⟩, .zip ⟨1, 2, 3, 1, 9⟩, .unzip ⟨1, 2, 3, 1, 9⟩, .xpose ⟨1, 2, 0, 0, 9⟩, .rnsenc ⟨1, 2, 0, 0, 10⟩,
    .rnsdec ⟨1, 2, 23, 0, 10⟩, .swsplit ⟨1, 2, 1, 2, 12⟩, .swjoin ⟨1, 2, 3, 1, 12⟩ none] : List Instr).all
    (fun i => (formatRule tQ tRegs i).isSome) = true := by unfold Free; decide +kernel

theorem test_witness_CrossFileCopies : Free tFlying tw ∧ (copyRule tRegs .sx 1 6 3 0 false).isSome = true ∧
    (tFlying.ctx tw).pipe.ntrWaits 3 = false ∧ (copyRule tRegs .va 31 0 1 31 false).isSome = true ∧
    (copyRule tRegs .va 7 2 1 31 true).isSome = true ∧ (copyRule tRegs .fm 7 2 1 0 false).isSome = true ∧
    (copyRule tRegs .ls 15 5 7 0 false).isSome = true := by unfold Free; decide +kernel

/-- The same context in supervisor mode, and in a handler. -/
def tSup : State := tRun { tCtx with sys := { tCtx.sys with tstate := 1 } }
def tInh : State := tRun { tCtx with sys := { tCtx.sys with tstate := 4 + 16 + 2 ^ 12, tbundle := 0x1000 } }

theorem test_witness_SystemRegisterReads : Free tQuiet tw ∧ (25 : BitVec 12).toNat ∈ sels := by unfold Free; decide +kernel
theorem test_witness_SystemRegisterWrites : Free tQuiet tw ∧ (9 : BitVec 12).toNat ∈ selsTask ∧ Free tSup tw ∧
    (24 : BitVec 12).toNat ∈ selsSup ∧ (tSup.ctx tw).sup = true := by unfold Free; decide +kernel
theorem test_witness_DivisionByZeroTraps : Free tFlying tw ∧ tRegs.getS .y 0 = 0 ∧ tRegs.getS .x 9 = 0 := by unfold Free; decide +kernel
theorem test_witness_NonuniformTraps : Free tFlying tw ∧ tRegs.getK 1 ≠ 0 ∧ tRegs.getK 1 ≠ BitVec.allOnes 64 := by
  unfold Free; decide +kernel
theorem test_witness_SystemRegisterTraps : tQuiet.cur = some tw ∧ (tQuiet.ctx tw).mayIssue = true ∧ 24 ∈ selsSup ∧
    (tQuiet.ctx tw).sup = false ∧ 0 ∉ selsTask ∧ 0 ∉ selsSup ∧ 11 ∉ sels := by decide +kernel

theorem test_witness_Branches : Free tFlying tw ∧ ([
    .bra true 0x1FFFFF, .bz false .x 0 1, .bz true .x 1 1, .bnz false .y 1 0x7FFF, .bnz false .y 0 1, .bkall false 0 1, .bkall true 2 1,
    .bknone false 2 1, .bknone true 0 1, .call false 5, .call true 5, .ret false, .ret true] : List Instr).all
    (fun i => (branchRule ((tFlying.landed tw).ctx tw) i).isSome) = true := by unfold Free; decide +kernel

theorem test_witness_Loops : Free tFlying tw ∧ ((tFlying.landed tw).ctx tw).pipe.loops = [] ∧ tRegs.getX 1 = 7 ∧ tRegs.getX 0 = 0 := by
  unfold Free; decide +kernel

/-- The quiet context inside a loop whose last word is its bundle, with n iterations left. -/
def tLoop (n : Nat) : State := tRun { tCtx with pipe := { tCtx.pipe with loops := [⟨0x1000, 0x1010, n⟩] } }
theorem test_witness_LoopEnds : Free (tLoop 1) tw ∧ Free (tLoop 2) tw ∧ ((tLoop 2).ctx tw).pipe.loops = [⟨0x1000, 0x1010, 2⟩] ∧
    ((tLoop 2).ctx tw).pipe.pc = 0x1010 := by unfold Free; decide +kernel

/-- The quiet context with a record in its event queue and one owed to it. -/
def tEvents : State := tRun { tCtx with evq := [⟨1, 2⟩], owed := [⟨3, 4⟩] }
theorem test_witness_ControlSlots : Free tEvents tw ∧ (0 : BitVec 2).toNat ≤ fld (tEvents.ctx tw).sys.prioclass 5 4 ∧
    (tEvents.ctx tw).evq = [⟨1, 2⟩] ∧ (tEvents.landed tw).mayEnd tw = true ∧ Free tSup tw ∧ (tSup.ctx tw).sup = true := by
  unfold Free; decide +kernel

theorem test_witness_TrapInstructions : Free tFlying tw ∧ Free tInh tw := by unfold Free; decide +kernel

/-- A copy entry that has started. -/
def tEntry : CopyEnt :=
  { kind := .copy, q := 0, words := [], tag := 0, evt := false, kperm := 0, asid := 5, ring := none, started := true, next := 0,
    paused := none, status := 0, fkind := 0, addr := 0, ended := false, sigs := 0, sums := [] }
/-- The context with that entry in its queue 0. -/
def tCopying : State := tRun { tCtx with copyq := [tEntry] }

theorem test_witness_TrapDelivery : (tFlying.ctx tw).delivers { trapAt 25 0 0 7 0 with code := 5 } = true ∧
    (tFlying.ctx tw).delivers (trapAt 20 0 0 1 0) = true ∧ (15 : Nat) < 16 := by decide +kernel
theorem test_witness_TrapEscalation : (tCopying.ctx tw).delivers (trapAt 1 0 0 7 0) = false ∧
    ((tCopying.ctx tw).setAside (tCopying.ctx tw).pipe.count).settled = false ∧
    (tCopying.core 0).lees = [] ∧ (tCopying.taskOf tw).bind (·.gang) = none ∧ tCopying.link.fails = [] := by decide +kernel
theorem test_witness_ReturnFromTrap : Free tInh tw ∧ (tInh.ctx tw).inh = true ∧ Free tQuiet tw ∧ (tQuiet.ctx tw).inh = false := by
  unfold Free; decide +kernel

theorem test_witness_SlotsThatPassTheChecksRetire : Quiet tQuiet tw ∧ (slotOf .nop).any (fun sl => !sl.ill &&
    !sl.priv (tQuiet.ctx tw).sup && sl.loop.isNone && (sl.wait tw (tQuiet.landed tw)).isNone && (sl.trap5 tw (tQuiet.landed tw)).isNone &&
    (sl.results tw (tQuiet.landed tw)).length == 0) = true := by unfold Quiet Free; decide +kernel
theorem test_witness_IllFormedSlotsTrap : (slotOf (.shl .x 1 1 (.imm 64))).isSome = true ∧ tQuiet.cur = some tw ∧
    (tQuiet.ctx tw).mayIssue = true ∧ wellFormed (.shl .x 1 1 (.imm 64)) = false := by decide +kernel

/-! ## Memory -/

/-- A byte of host-homed memory whose line is not held. -/
theorem test_witness_HomeWriteReads : isHostHomed 0xC000000000000 = true ∧ tget? tQuiet.l2 (0xC000000000000 / 128) = none := by
  decide +kernel
theorem test_witness_ClusterWriteReads : isHbm 0x10100 = true ∧ roomy tQuiet (clusterOf 0) 0x10100 1 := by
  unfold roomy; decide +kernel

/-- The quiet context with a map of 16 MiB from address 0, read, write and in a key that it may use. -/
def tMap : Extent := ⟨0, BitVec.ofNat 64 (1 + 2 + 4 + 16 * 4096 + 2 ^ 57), 0⟩
def tMemory : State := tRun { tCtx with
  extents := [(0, tMap)]
  regs := { tCtx.regs with a := [(1, 0x100), (2, 0x103), (3, 0x1000)], k := [(1, 1), (2, 2 ^ 63)] }
  sys := { tCtx.sys with kperm := BitVec.allOnes 64 } }
/-- Where an address of that map lies. -/
def tAt (pa : Nat) : Xl := ⟨pa, 0, 1, 0, false, false, true, true, 0, 2 ^ 24, false⟩

theorem test_noGlobal (s : State) (h : s.dies.all (fun d => d.2.tx.flows.all fun f => f.2.accs == []) = true) : noGlobal s := by
  intro d hd f hf
  have := List.all_eq_true.mp h d hd
  exact eq_of_beq (List.all_eq_true.mp this f hf)

/-- Without a coherent host no access waits for the bias of its page. -/
theorem test_noBias (s : State) (w : At) (a : W64) (n : Nat) (x : Xl) (h : s.coherentHost = false) : biasSettled s w a n x := by
  constructor
  · simp [State.coreWalkWait, h]
  · intro wide write
    simp [State.placeWait, h]

theorem test_plain (a n : Nat) (need : Need) (x : Xl)
    (h : (tMemory.landed tw).parts tw ((tMemory.landed tw).ctx tw) (BitVec.ofNat 64 a) n need = [(BitVec.ofNat 64 a, n, .ok x)])
    (hx : isHbm (x.pa + n) = true ∧ x.cpol = 0 ∧ x.okind ≠ 0 ∧ isGlobal (BitVec.ofNat 64 a) = false) :
    plainAccess (tMemory.landed tw) tw (BitVec.ofNat 64 a) n need x := by
  obtain ⟨h1, h2, h3, h4⟩ := hx
  refine ⟨h4, h, h1, h2, h3, test_noBias _ _ _ _ _ (by decide +kernel), ?_⟩
  and_intros <;> first | decide +kernel | exact test_noGlobal _ (by decide +kernel)

theorem test_quietMemory : Quiet tMemory tw := by unfold Quiet Free; decide +kernel

/-- An aligned load and a store of a byte at the end of the line before. -/
theorem test_witness_ScalarLoads : Quiet tMemory tw ∧ loadAddr (tMemory.ctx tw).regs .d64 ⟨5, 1, 0, 0, 2⟩ = (0x110, 8, false) ∧
    plainAccess (tMemory.landed tw) tw 0x110 8 .load (tAt 0x110) ∧ roomy tMemory (clusterOf tw.core) 0x110 8 :=
  ⟨test_quietMemory, by decide +kernel, test_plain 0x110 8 .load (tAt 0x110) rfl (by decide +kernel), by unfold roomy; decide +kernel⟩
theorem test_witness_ScalarStores : Quiet tMemory tw ∧ storeAddr (tMemory.ctx tw).regs .b8 ⟨0, 1, 0, 0, 0xFF⟩ = (0xFF, 1) ∧
    plainAccess (tMemory.landed tw) tw 0xFF 1 .store (tAt 0xFF) ∧ badCanon 0xFF = false ∧ roomy tMemory (clusterOf tw.core) 0xFF 1 :=
  ⟨test_quietMemory, by decide +kernel, test_plain 0xFF 1 .store (tAt 0xFF) rfl (by decide +kernel), by decide +kernel,
    by unfold roomy; decide +kernel⟩
theorem test_witness_Atomics : Quiet tMemory tw ∧ (0x100 : Nat) % 16 = 0 ∧ (tMemory.ctx tw).regs.getA 1 = 0x100 ∧
    plainAccess (tMemory.landed tw) tw 0x100 4 .rmw (tAt 0x100) ∧ plainAccess (tMemory.landed tw) tw 0x100 16 .rmw (tAt 0x100) ∧
    roomy tMemory (clusterOf tw.core) 0x100 16 ∧ ∀ l ∈ linesOf 0x100 16, (tMemory.landed tw).recAt (clusterOf tw.core) true l = none :=
  ⟨test_quietMemory, by decide +kernel, by decide +kernel, test_plain 0x100 4 .rmw (tAt 0x100) rfl (by decide +kernel),
    test_plain 0x100 16 .rmw (tAt 0x100) rfl (by decide +kernel), by unfold roomy; decide +kernel, by decide +kernel⟩

/-- A load of 64 elements of 4 bytes, of which two are active, and a scatter of 32 elements of 8 bytes of which one is active; the lines
of both stand in the cluster cache. -/
def tHeldLines : State := (tMemory.updClu 0 fun c => { c with cc := [(2, ⟨0, 0, 0, 5, 0, none⟩), (3, ⟨0, 0, 0, 5, 0, none⟩)] })
theorem test_witness_VectorAccesses : Quiet tHeldLines tw ∧ noGlobal tHeldLines ∧ (tHeldLines.core 0).lees = [] ∧
    (([(Instr.vld 3 1 1 0, false, 4), (.vst 3 1 1 0, true, 4), (.vlds 3 1 1 1 3, false, 8), (.vsts 3 1 1 1 0, true, 1),
      (.vgth 3 1 1 3 2, false, 4), (.vsct 3 1 1 3 1, true, 2)] : List (Instr × Bool × Nat)).all fun p =>
      (vectorRule (tHeldLines.ctx tw).regs p.1).any fun r => r.1 == p.2.1 && r.2.2.1 == p.2.2 &&
        activeElems r.2.2.1 ((tHeldLines.ctx tw).regs.getK r.2.2.2.1.toNat) == (if p.2.2 == 1 then [0, 1, 2, 3] else if p.2.2 == 2 then [0, 1] else [0])) = true ∧
    plainAccess (tHeldLines.landed tw) tw 0x100 4 .load (tAt 0x100) ∧ plainAccess (tHeldLines.landed tw) tw 0x100 2 .store (tAt 0x100) ∧
    tlbHolds tHeldLines tw 0x100 8 ∧ heldLines tHeldLines (clusterOf 0) 0x100 8 := by
  refine ⟨by unfold Quiet Free; decide +kernel, test_noGlobal _ (by decide +kernel), by decide +kernel, by decide +kernel, ?_, ?_,
    .inl (by decide +kernel), by unfold heldLines; decide +kernel⟩
  all_goals
    refine ⟨by decide +kernel, rfl, by decide +kernel, by decide +kernel, by decide +kernel, test_noBias _ _ _ _ _ (by decide +kernel), ?_⟩
    and_intros <;> first | decide +kernel | exact test_noGlobal _ (by decide +kernel)

theorem test_unheld (a n : Nat) (need : Need) (x : Xl)
    (h : (tMemory.landed tw).parts tw ((tMemory.landed tw).ctx tw) (BitVec.ofNat 64 a) n need = [(BitVec.ofNat 64 a, n, .ok x)]) :
    unheld (tMemory.landed tw) tw (BitVec.ofNat 64 a) n need := by
  have hb := test_noBias (tMemory.landed tw) tw (BitVec.ofNat 64 a) n x (by decide +kernel)
  refine ⟨test_noGlobal _ (by decide +kernel), by decide +kernel, by decide +kernel, by decide +kernel, fun _ => ⟨hb.1, fun p hp => ⟨x, ?_⟩⟩⟩
  rw [h, List.mem_singleton] at hp
  subst hp
  exact ⟨rfl, hb.2⟩
theorem test_witness_MemoryTraps : Quiet tMemory tw ∧ (loadAddr (tMemory.ctx tw).regs .s16 ⟨5, 2, 5, 1, 0⟩) = (0x103, 2, true) ∧
    unheld (tMemory.landed tw) tw 0x103 2 .load ∧ storeAddr (tMemory.ctx tw).regs .b64 ⟨5, 2, 0, 2, 1⟩ = (0x10B, 8) ∧
    unheld (tMemory.landed tw) tw 0x10B 8 .store ∧ (tMemory.ctx tw).regs.getA 2 = 0x103 ∧ unheld (tMemory.landed tw) tw 0x103 4 .rmw ∧
    (tMemory.ctx tw).regs.getK 2 = 2 ^ 63 ∧ unheld (tMemory.landed tw) tw (0x103 + BitVec.ofNat 64 (4 * 63)) 4 .load :=
  ⟨test_quietMemory, by decide +kernel, test_unheld 0x103 2 .load (tAt 0x103) rfl, by decide +kernel,
    test_unheld 0x10B 8 .store (tAt 0x10B) rfl, by decide +kernel, test_unheld 0x103 4 .rmw (tAt 0x103) rfl, by decide +kernel,
    test_unheld 0x1FF 4 .load (tAt 0x1FF) rfl⟩

/-- The context with an ASID whose root table maps nothing. -/
def tAbsent (h : Option PageHold) : State :=
  (tRun { tCtx with sched := { tCtx.sched with hold := h } }).updDie 0 fun d => { d with asidTab := [(5, 1, 0)] }
theorem test_witness_LoadsOfAbsentPages : Quiet (tAbsent none) tw ∧ isGlobal 0x10100 = false ∧ ((tAbsent none).core 0).lees = [] ∧ noGlobal (tAbsent none) ∧
    (let s1 := (tAbsent none).landed tw
     s1.coreWalkWait 0 (s1.ctx tw).asid ((s1.ctx tw).extentFor 0x10100 8) 0x10100 8 = none ∧
     s1.parts tw (s1.ctx tw) 0x10100 8 .load = [(0x10100, 8, .error (.page 0))]) ∧
    ((tAbsent none).ctx tw).sched.hold = none ∧
    (let s1 := (tAbsent (some ⟨5, 0x10100, true⟩)).landed tw
     s1.parts tw (s1.ctx tw) 0x10100 8 .load = [(0x10100, 8, .error (.page 0))]) ∧
    loadAddr ((tAbsent none).ctx tw).regs .d64 ⟨5, 1, 0, 0, 0⟩ = (0x10100, 8, false) := by
  unfold Quiet Free
  and_intros <;> first | rfl | decide +kernel | exact test_noGlobal _ (by decide +kernel)

/-- Offset 0 and the last 8 bytes of WB and AB: a1 = 0 and a2 = the AB word of its last 8 bytes. -/
def tBuffers : State := tRun { tCtx with regs := { tCtx.regs with a := [(1, 0), (2, bufWord 1 0 (spaceSize 1 - 8))] } }
theorem test_witness_BufferAccesses : Quiet tBuffers tw ∧ ([⟨3, 1, 0, false, 0⟩, ⟨3, 2, 1, true, 0⟩] : List LbOpd).all (fun o =>
    let q := lbWord (tBuffers.ctx tw).regs o
    q.2 && bufCore (clusterOf 0) q.1 == 0 && bufInRange q.1 (if o.x then 8 else 256) && bufOff q.1 % (if o.x then 8 else 32) == 0) = true ∧
    (tBuffers.core 0).press = [] ∧ (tBuffers.core 0).lees = [] ∧ ((tBuffers.taskOf tw).map (·.det)).getD false = false ∧ noGlobal tBuffers := by
  unfold Quiet Free
  and_intros <;> first | decide +kernel | exact test_noGlobal _ (by decide +kernel)
theorem test_witness_FencesAndKeys : Quiet tQuiet tw ∧ (tQuiet.core 0).lees = [] ∧ tQuiet.releases = [] ∧
    tQuiet.cacheOps = [] ∧ (5 : BitVec 3).toNat ≤ 5 ∧ (2 : BitVec 3).toNat ≤ 2 ∧ (2 : BitVec 2) ≠ 3 ∧ noGlobal tQuiet ∧
    ∀ v, (tQuiet.landed tw).coreWalkWait 0 5 (((tQuiet.landed tw).ctx tw).extentFor v.toNat 128) v 1 = none := by
  unfold Quiet Free
  have h : (tQuiet.landed tw).coherentHost = false := by decide +kernel
  and_intros <;> first | (intro v; simp [State.coreWalkWait, h]; done) | decide +kernel | exact test_noGlobal _ (by decide +kernel)
/-- CASKCTL leaves twelve ways of cluster 0 to cask lines. -/
def tCask : State := tQuiet.updClu 0 fun c => { c with caskctl := 12 }
theorem test_witness_CaskLines : (196607 : Nat) < 196608 ∧ 196607 / 16384 < min (fld (tCask.clu 0).caskctl 3 0) 12 ∧
    tget? (tCask.clu 0).cask 196607 = none ∧ tCask.caskSpent 5 = false ∧ Quiet tQuiet tw ∧ (tQuiet.core 0).lees = [] ∧ noGlobal tQuiet ∧
    bufOff ((tQuiet.ctx tw).regs.getA 1) % 128 = 0 ∧ bufOff ((tQuiet.ctx tw).regs.getA 2) % 128 ≠ 0 := by
  unfold Quiet Free
  and_intros <;> first | decide +kernel | exact test_noGlobal _ (by decide +kernel)

/-! ## Encodings, steps and landing -/

theorem test_witness_SlotsDecodeAsEncoded : (encodeSlot (.cpy .sx 31 6 3 0 false)).isSome = true ∧
    (encodeSlot (.stepbRp 255 0xFFFF)).isSome = true ∧ (encodeSlot (.loop (.imm 1023) 0)).isSome = true := by decide
theorem test_witness_DecodedSlotsAreEncoded : decodeSlots 0 [0x70400000] = some [⟨laneOf 0x70400000, 1, some .nop⟩] ∨
    decodeSlots 0 [0xF0400000] = some [⟨laneOf 0xF0400000, 1, some .nop⟩] := by decide +kernel
theorem test_witness_TcWordsDecodeAsEncoded : encodeTc (.tcBltu 31 31 0xFFFF) = some 0x8BFFFFFF := by decide

/-- A program of one NOP at the program counter, in a map that may be executed. -/
def tProgram : State := { tRun { tCtx with
  extents := [(0, { tMap with w1 := tMap.w1 + 8 })]
  sys := { tCtx.sys with kperm := BitVec.allOnes 64 } } with mem := [(0x1012, 0x40), (0x1013, 0xF0)] }
theorem test_witness_turnOf : turnOf tProgram 0 0 := by unfold turnOf; decide +kernel
theorem test_witness_bundle : (toIssue tProgram 0).bundleWords tw 8 ((toIssue tProgram 0).ctx tw).pipe.pc = .ok [0xF0400000] ∧
    decodeBundle [0xF0400000] = some [⟨7, 1, some .nop⟩] ∧ (slotOf .nop).any (fun sl => sl.words == 1) = true :=
  ⟨rfl, by decide +kernel, by decide +kernel⟩
theorem test_step_nop : ((okState (step tProgram)).map fun t => (t.ctx tw).pipe.pc) = some 0x1014 := by decide +kernel
theorem test_witness_agenda : ({ tQuiet with agenda := [.nop] } : State).agenda = .nop :: [] := rfl

/-- The machine in which the transport core of die 0 runs with these registers. -/
def tTc (t : Tc) : State := ({ State.reset with focus := .tc 0 }).updTc 0 fun _ => t
/-- t1 = 8192, t2 = 64, t3 = 256, t4 = 2^24, t5 = 7, t6 = 0x20, t7 = -8. -/
def tTcRegs : Tc := { ((State.reset).die 0).tc with
  state := 1, pc := 100, t := [(1, 8192), (2, 64), (3, 256), (4, 16777216), (5, 7), (6, 0x20), (7, 0xFFFFFFFFFFFFFFF8), (31, 16384)] }
def tCore : State := tTc tTcRegs

theorem test_witness_StepRunsTc : tCore.agenda = [] ∧ tCore.focus = .tc 0 ∧ (tCore.die 0).tc.state = 1 ∧ tCore.board.powered = true ∧
    (tCore.die 0).tc.busy = 0 ∧ ((tTc { tTcRegs with busy := 1 }).die 0).tc.busy ≠ 0 ∧ decodeTc (tget 0 (tCore.die 0).tc.imem 100) = none ∧
    (let s := tTc { tTcRegs with imem := [(100, 0xFC000000)] }
     decodeTc (tget 0 (s.die 0).tc.imem (s.die 0).tc.pc.toNat) = some .tcHalt ∧ s.agenda = [] ∧ s.focus = .tc 0) := by
  decide +kernel
theorem test_witness_StepsKeep : Memory.wf tProgram.mem ∧ (okState (step tProgram)).isSome = true := by decide +kernel
theorem test_witness_RegistersReadBack : beyond (.cpy .sx 1 3 8 0 false) = some 0 ∧ beyond (.cpy .sx 1 6 4 0 false) = some 0 ∧
    beyond (.cpy .ls 16 0 1 0 false) = some 4 ∧ beyond (.cpy .va 8 0 1 0 true) = some 2 ∧ beyond (.cpy .fm 8 0 1 0 false) = some 3 ∧
    beyond (.cpye ⟨1, 8, 0, 0, 0⟩) = some 3 ∧ beyond (.amov 16 0 0) = some 4 ∧ beyond (.ainc 31 0 0) = some 4 ∧
    tQuiet.cur = some tw ∧ (tQuiet.ctx tw).mayIssue = true ∧ deadReg .k 7 = false ∧ deadReg .a 0 = false := by decide +kernel
/-- Writing x0 is allowed: it completes and leaves x0 at 0. -/
theorem test_x0 : ((okState (exec (.add .x 0 1 (.reg 2)) tQuiet)).map fun t => ((t.ctx tw).landTo 11).regs.getX 0) = some 0 := by
  decide +kernel
theorem test_add : ((okState (exec (.add .x 5 1 (.reg 2)) tQuiet)).map fun t => ((t.ctx tw).landTo 11).regs.getX 5) = some 10 := by
  decide +kernel
theorem test_sub_wraps : ((okState (exec (.sub .x 5 2 1) tQuiet)).map fun t => ((t.ctx tw).landTo 11).regs.getX 5) =
    some 0xFFFFFFFFFFFFFFFC := by decide +kernel
theorem test_mulh_sign : ((okState (exec (.sub .x 1 2 1) tQuiet)).bind fun t =>
    (okState (exec (.mulh .x 6 1 2) t)).map fun t => ((t.ctx tw).landTo 20).regs.getX 6) = some 0xFFFFFFFFFFFFFFFF := by decide +kernel
theorem test_div_zero : ((okState (exec (.div .x 5 1 0) tQuiet)).map fun t => ((t.ctx tw).pipe.pc, fld (t.ctx tw).sys.tcause 7 0)) =
    some (0x8000, 20) := by decide +kernel
/-- R252: a count that is not due is not yet read. -/
theorem test_old_value : ((okState (exec (.mul .x 5 1 (.reg 2)) tQuiet)).map fun t =>
    (((t.ctx tw).landTo 12).regs.getX 5, ((t.ctx tw).landTo 13).regs.getX 5)) = some (0, 21) := by decide +kernel
/-- R290: a store, then a load of one of its bytes with its sign. -/
theorem test_store_load : ((okState (exec (.st .x .b64 ⟨1, 1, 0, 0, 0⟩) { tMemory with mem := [(0x101, 0x80)] })).bind fun t =>
    (okState (exec (.ld .x .s8 ⟨6, 1, 0, 0, 0⟩) t)).map fun u => (u.ctx tw).pipe.sb.map (·.value.setWidth 64)) =
    some [(7 : W64)] := by decide +kernel
theorem test_load_sign : ((okState (exec (.ld .x .s16 ⟨6, 1, 0, 0, 0⟩) { tMemory with mem := [(0x101, 0x80)] })).map fun u =>
    (u.ctx tw).pipe.sb.map (·.value.setWidth 64)) = some [(0xFFFFFFFFFFFF8000 : W64)] := by decide +kernel

theorem test_witness_ResultsLand : deadReg .y 1 = false ∧ tCtx.pipe.inflight = [] ∧ (0 : Nat) < 18 ∧
    (∀ r ∈ [Res.w .x 5 1 1], (r.file, r.reg) ≠ (.x, 6)) ∧ ∀ g ∈ (tFlying.ctx tw).pipe.inflight, (g.file, g.reg) ≠ (.x, 6) := by
  decide +kernel
/-- A scoreboarded load of x7 whose data has come, or has not. -/
def tBoard (r : Bool) : State := tRun { tCtx with pipe := { tCtx.pipe with sb := [⟨.x, 7, wholeMask, 5, 0, 0, r, false⟩] } }
theorem test_witness_ScoreboardedResultsLand : ((tBoard true).ctx tw).pipe.sb[0]?.any (·.ready) = true ∧
    (∀ e, ((tBoard true).ctx tw).pipe.sb[3]? = some e → e.ready = false) ∧
    (slotOf (.add .x 1 7 (.reg 2))).any (fun sl => !sl.ill && !sl.priv false && sl.loop.isNone &&
      sl.reads.any fun r => (((tBoard false).landed tw).ctx tw).pipe.scoreboarded r.1 r.2) = true ∧
    (tBoard false).cur = some tw ∧ ((tBoard false).ctx tw).mayIssue = true := by
  and_intros <;> decide +kernel

/-! ## Transport cores -/


theorem test_witness_TcResults : tcRuns tCore 0 ∧ (tCore.die 0).tc.pc ≠ 16383 ∧ ([
    .tcAdd 1 2 3, .tcSub 1 0 3, .tcAnd 1 2 3, .tcOr 1 2 3, .tcXor 0 2 3, .tcShl 1 5 2, .tcShr 1 5 2, .tcSltu 1 2 3, .tcAddi 1 2 0xFFFF,
    .tcAndi 1 2 0xFFFF, .tcShli 1 2 63, .tcShri 1 2 63, .tcLi 1 0x8000, .tcLis 5 1, .tcLde 1 4, .tcLdp 1 516] : List Instr).all
    (fun i => (tcRule (tCore.die 0).tc i).isSome) = true := by unfold tcRuns; decide +kernel
theorem test_witness_TcMemory :
    (((tr (tCore.die 0).tc 0).toInt + (0x7FF8#16 : BitVec 16).toInt) % 2 ^ 64 % 8 = 0 ∧
      ((tr (tCore.die 0).tc 0).toInt + (0x7FF8#16 : BitVec 16).toInt) % 2 ^ 64 < 0x40000) ∧
    ¬ (((tr (tCore.die 0).tc 7).toInt + (0#16 : BitVec 16).toInt) % 2 ^ 64 < 0x40000) ∧
    ((tr (tCore.die 0).tc 5).toInt + (0#16 : BitVec 16).toInt) % 2 ^ 64 % 8 ≠ 0 := by decide +kernel
theorem test_witness_TcBranches : tcRuns tCore 0 ∧ tcTarget (tCore.die 0).tc (.tcJmp (BitVec.ofInt 26 (-100))) = some 0 ∧
    tcTarget (tCore.die 0).tc (.tcJmp (BitVec.ofInt 26 (-101))) = some (-1) ∧
    tcTarget (tCore.die 0).tc (.tcCall 16283) = some 16383 ∧ tcTarget (tCore.die 0).tc .tcRet = some 16384 ∧
    tcTarget (tCore.die 0).tc (.tcBeq 1 1 5) = some 105 ∧ tcTarget (tCore.die 0).tc (.tcBne 1 1 5) = some 101 ∧
    tcTarget (tCore.die 0).tc (.tcBltu 5 2 0xFFFF) = some 99 := by unfold tcRuns; decide +kernel

/-- An event, and a packet that it may hold. -/
def tEvent : TcEvent := ⟨0, 0, 0, 0, 0, 0, none, none⟩
def tPacket : Packet := ⟨9, 3, 7, 5, 0, 0, 0, 0, [], false, false, false, false, false, []⟩
/-- The core with the event in its queue, and with the event current and a packet held. -/
def tCoreQueue : State := tTc { tTcRegs with queue := [tEvent] }
def tCoreHeld : State := { tTc { tTcRegs with cur := some { tEvent with held := some tPacket }, heldAt := 0, limit := 5 } with cycle := 5 }

theorem test_witness_TcStp : tcRuns tCoreHeld 0 ∧ (tCoreHeld.die 0).tc.cur = some { tEvent with held := some tPacket } ∧
    (let s := tTc { tTcRegs with cur := some { tEvent with hdr := some ⟨tPacket, 6, 64, 8⟩ } }
     tcRuns s 0 ∧ (s.die 0).tc.cur = some { tEvent with hdr := some ⟨tPacket, 6, 64, 8⟩ }) := by
  unfold tcRuns; decide +kernel
/-- R155: a branch that is taken keeps its core from its next turn, one that is not does not. -/
theorem test_branch_cycles : ((okState (exec (.tcBeq 1 1 5) tCore)).map fun t => (t.die 0).tc.busy) = some 1 ∧
    ((okState (exec (.tcBne 1 1 5) tCore)).map fun t => (t.die 0).tc.busy) = some 0 := by decide +kernel
theorem test_witness_TcOperations : tcRuns tCore 0 ∧ (tCore.die 0).tc.cur = none ∧ (tCore.die 0).tc.queue = [] ∧
    tcRuns tCoreQueue 0 ∧ (tCoreQueue.die 0).tc.queue = tEvent :: [] ∧ (tCore.die 0).tx.flows = [] ∧
    (∀ e, (tCore.die 0).tc.cur = some e → e.held = none ∧ e.hdr = none) ∧ 8192 ≤ (tr (tCore.die 0).tc 1).toNat ∧ 64 ≤ (tr (tCore.die 0).tc 2).toNat ∧ (tr (tCore.die 0).tc 6).toNat < 64 ∧
    256 ≤ (tr (tCore.die 0).tc 3).toNat ∧ (tr (tCore.die 0).tc 5).toNat < 256 ∧ 2 ^ 24 ≤ (tr (tCore.die 0).tc 4).toNat ∧
    (tr (tCore.die 0).tc 6).toNat ∉ [0, 6, 7] ∧ (tr (tCore.die 0).tc 0).toNat = 0 ∧ (tr (tCore.die 0).tc 5).toNat ∈ [0, 6, 7] ∧
    fld (tr (tCore.die 0).tc 5) 42 16 = 0 ∧ fld (tr (tCore.die 0).tc 5) 14 10 = 0 ∧ bit (tr (tCore.die 0).tc 5) 15 = false := by
  unfold tcRuns; decide +kernel
/-- The core that holds a packet, a header or neither, beside two operations of which one is complete. -/
def tSent (n : Nat) (done : Bool) : TxOp :=
  { opid := n, kind := 0, core := 0, ctx := 0, trid := 77, asid := 5, tag := 1, source := 2, noev := true, words := [], xb := 0, kperm := 0,
    total := 1, acked := if done then 1 else 0, bytes := 0, ctr := none, status := 0, fkind := 0, addr := 0, group := 0, gseq := 0,
    gdig := 0, peers := [], started := true, ready := false, mark := 0, data := none, src := none, waitPg := none }
def tCoreOps : State := tCore.updTx 0 fun x => { x with ops := [tSent 7 true, tSent 32 false] }
theorem test_witness_TcAnswersComplete : tcRuns tCoreOps 0 ∧ tcRuns tCoreHeld 0 ∧ (tCoreOps.die 0).tc.pc ≠ 16383 ∧
    (tCoreHeld.die 0).tc.cur = some { tEvent with held := some tPacket } ∧
    pkMalformed { tPacket with w0 := 0x1600000000000000 } = none ∧ pkOp { tPacket with w0 := 0x1600000000000000 } = 6 ∧
    pkMalformed { tPacket with w0 := 0x1100000000000000 } = none ∧ pkOp { tPacket with w0 := 0x1100000000000000 } = 1 ∧
    (tr (tCoreOps.die 0).tc 5).toNat = 7 ∧ (tr (tCoreOps.die 0).tc 6).toNat = 32 ∧ (tr (tCoreOps.die 0).tc 3).toNat = 256 ∧
    (tCoreOps.die 0).tx.ops.find? (fun o => o.opid == 7) = some (tSent 7 true) ∧ (tSent 7 true).acked = (tSent 7 true).total ∧
    (tCoreOps.die 0).tx.ops.find? (fun o => o.opid == 32) = some (tSent 32 false) ∧ (tSent 32 false).acked ≠ (tSent 32 false).total ∧
    (tCoreOps.die 0).tx.ops.find? (fun o => o.opid == 256) = none ∧ (tCoreOps.die 0).tx.flows = [] := by
  unfold tcRuns; decide +kernel
/-- The start-up of the machine is over, or not. -/
theorem test_witness_boot : 6 ≤ tQuiet.board.boot ∧ (tQuiet.die 0).tc.state ≠ 1 ∧ (tQuiet.die 0).tc.cur = none ∧ (State.reset).board.boot < 6 ∧
    (let s := { tCore with board := { Board.reset with boot := 6 } }
     6 ≤ s.board.boot ∧ (s.die 0).tc.state = 1 ∧ (s.die 0).tc.cur = none ∧ (s.die 0).tc.queue = []) := by decide +kernel
theorem test_witness_TcControl : ((State.reset).die 0).tc.state ≠ 1 ∧ ((State.reset).die 0).tc.cur = none ∧ (tCore.die 0).tc.state = 1 ∧
    (tCore.die 0).tc.cur = none ∧ (tCoreHeld.die 0).tc.state = 1 ∧ (tCoreHeld.die 0).tc.limit ≠ 0 ∧
    (tCoreHeld.die 0).tc.heldAt + (tCoreHeld.die 0).tc.limit ≤ tCoreHeld.cycle ∧
    (let s := tTc { tTcRegs with timers := [(255, 0)] }
     tget? (s.die 0).tc.timers 255 = some 0 ∧ 0 ≤ s.cycle ∧ (s.die 0).tc.state = 1 ∧ (s.die 0).tc.queue.length < 1024 ∧
     tget? (s.die 0).tc.timers 0 = none) := by decide +kernel

/-! ## The MX and EN lanes -/

/-- The quiet context with descriptor sets of one cell for its presses, copies of one element in its copy sets, and handle 0 of its
ring table: a ring of AB with 64 slots of which 4 hold data, and the others unusable. -/
def tEngine : State := (tQuiet.updEng tw fun e => { e with
  md := (List.range 144).map fun i => (i, BitVec.ofNat 64 (if i % 9 < 2 then 2 ^ 44 + 2 ^ 54
    else if i % 9 = 3 then 31 * 2 ^ 54 + 3 * 2 ^ 47 + 3 * 2 ^ 41 + 512 * 2 ^ 19 else 0))
  cd := (List.range 64).map fun i => (i, BitVec.ofNat 64 (if i % 8 = 6 then 0 else if i % 8 = 0 then 0 else 4096))
  rt := [(0, 0x1000000000000000), (1, 0x8000000000000000 + 64 * 65536 + 4), (2, 5 * 2 ^ 32 + 9), (3, 9)] })

/-- A MMA of press 0 that zeroes first. -/
def tMma : MmaOpd := ⟨false, true, true, false, 0, 1, false⟩
def tMcvt : McvtOpd := ⟨0, 0, 0, false, 0, 0, false, false, false⟩
theorem test_witness_MatrixSlotsIssue :
    let t := tEngine.landed tw
    let d := (t.ctx tw).eng.mdSet 0
    Quiet tEngine tw ∧ (tMma.z && tMma.a) = false ∧ tMma.vc.toNat < 2 ∧ t.mmaTrap tw 0 (t.mmaOp tw false tMma) = none ∧
    (t.mmaWait tw 0 (t.mmaOp tw false tMma)).isNone = true ∧ t.mmaTrap tw 0 (t.mmaOp tw true tMma) = none ∧
    (t.mmagWait tw 0 (t.mmaOp tw true tMma)).isNone = true ∧ (t.core 0).press = [] ∧
    rangeTrap 0 (mdRegion d false).ranges 2 = none ∧ mcvtIllegalWord tMcvt = false ∧ mcvtIllegalSet d tMcvt = false ∧
    rangeTrap 0 (mcvtRanges d tMcvt) 1 = none ∧ (t.core 0).mzeros = [] ∧ t.isDet tw = false ∧ mcvtOverlaps d tMcvt = false ∧ (t.core 0).lees = [] ∧ noGlobal tEngine := by
  unfold Quiet Free
  and_intros <;> first | decide +kernel | exact test_noGlobal _ (by decide +kernel)

/-- An operation of press 0 that started at cycle 10, takes 32 cycles, and writes 7 at offset 64 of CB. -/
def tPressOp : PressOp := ⟨0, 77, 5, false, [], tMma, 10, 32, [(64, 7)], 10, [], [], false⟩
def tSlow : MxSlow := ⟨0, ⟨0, 64, 1, 1, 0⟩, 10, 20, 0, [(128, 5)]⟩
/-- Core 0 with that operation, a clearing and a conversion due at cycle 20. -/
def tPresses (n : Nat) : State := { (tQuiet.updPress 0 0 fun x => { x with ops := [tPressOp] }).updCore 0 fun k =>
  { k with mzeros := [tSlow], mcvts := [tSlow] } with cycle := n }
theorem test_witness_PressEvents : (((tPresses 241).core 0).pressOf 0).held = [] ∧ (∀ o ∈ (((tPresses 241).core 0).pressOf 0).ops,
      (tPresses 241).cycle < o.start + 200 + o.cycles) ∧ (((tPresses 241).core 0).pressOf 0).ops = tPressOp :: [] ∧ tPressOp.cut = [] ∧
    tPressOp.start + 200 + tPressOp.cycles ≤ (tPresses 242).cycle ∧ tPressOp.gated = false ∧ (tQuiet.ctx tw).evRoom = true ∧
    (∀ z ∈ ((tPresses 19).core 0).mzeros, (tPresses 19).cycle < z.done) ∧ (∀ z ∈ ((tPresses 19).core 0).mcvts, (tPresses 19).cycle < z.done) ∧
    ((tPresses 20).core 0).mzeros = tSlow :: [] ∧ ((tPresses 20).core 0).mcvts = tSlow :: [] ∧
    tSlow.done ≤ (tPresses 20).cycle ∧ tSlow.space ≤ 1 ∧ ((tQuiet.core 0).pressOf 0).mmags = [] ∧
    (let s := tQuiet.updPress 0 0 fun x => { x with mmags := [{ tPressOp with gated := true }] }
     ((s.core 0).pressOf 0).mmags = [{ tPressOp with gated := true }] ∧ ((s.core 0).pressOf 0).free { tPressOp with gated := true } s.cycle = true ∧
     (s.core 0).drawWaits 0 { tPressOp with gated := true } s.cycle = false ∧ s.gatesReady { tPressOp with gated := true } = true) := by decide +kernel
theorem test_pressResult : ((okState (exec (.pressResultInPlace 0 0) (tPresses 242))).map fun t =>
    (((t.core 0).pressOf 0).ops.length, mget (t.core 0).cb 64)) = some (0, 7) := by decide +kernel

theorem test_witness_EngineRegisters : enFree tEngine tw ∧ (engReg 0x43).any (fun g => !g.priv && !(tEngine.ctx tw).eng.pipeReg g) = true ∧
    (List.range 4096).any (fun n => (engReg n).any (·.priv)) = true ∧ engReg 0xFFF = none ∧ (7 : Nat) % 9 = 7 ∧ (15 : Nat) % 9 = 6 := by
  unfold enFree Quiet Free; decide +kernel
/-- The context with 16 entries in copy queue 0. -/
def tFull : State := tEngine.updCtx tw fun c => { c with copyq := (List.range 16).map fun _ => tEntry }
theorem test_witness_CopyQueueSlots :
    let ws := (tEngine.ctx tw).eng.cdSet 0
    enFree tEngine tw ∧ cpIllegal ws = false ∧ cpRingen ws = false ∧ inQueue (tEngine.ctx tw) 0 < 16 ∧
    (tEngine.landed tw).sidesTrap tw 0 (cpBufSides ws) = none ∧ enFree tFull tw ∧ 16 ≤ inQueue (tFull.ctx tw) 0 ∧
    cpIllegal ((tQuiet.updEng tw fun e => { e with cd := [(6, BitVec.allOnes 64)] }).ctx tw |>.eng.cdSet 0) = true ∧ (9 : BitVec 4) ≠ 0 ∧
    (tEngine.landed tw).sidesTrap tw 1 [((tEngine.ctx tw).regs.getX 0, false, [(0, ((tEngine.ctx tw).regs.getX 2).toNat)])] = none := by
  unfold enFree Quiet Free; decide +kernel
theorem test_witness_RingSlots :
    let t := tEngine.landed tw
    let c := (tEngine.ctx tw).eng.ringCount 0
    enFree tEngine tw ∧ t.ringUsable tw 0 = true ∧ 1 ≤ c ∧ (t.ringPtr tw 0).res = (t.ringPtr tw 0).p ∧
    1 ≤ ptrDiff (t.ringPtr tw 0).p (t.ringPtr tw 0).c ∧ ptrDiff (t.ringPtr tw 0).p (t.ringPtr tw 0).c < c ∧
    ptrDiff (t.ringPtr tw 0).res (t.ringPtr tw 0).c + 1 ≤ c ∧ t.ringUsable tw 5 = false ∧ (tEngine.ctx tw).regs.getX 4 = 1 := by
  unfold enFree Quiet Free; decide +kernel

/-! ## Transport operations, triggers, tasks and steps -/

/-- A placement entry of one chunk of one element, in the words that its region needs: CH and NC of 1. -/
def tPlace : Place := { words := [0, 0, 0, 0x0001000100010001, 0x0001000100010001, 0, 2 ^ 63, 0], count := [], staged := [], epochs := 1, taken := 0, srcs := [] }
/-- Communication context 5, with job 9: entry 0, channel 0 of kind 3 with no peer, and channel 2 of kind 1. -/
def tComm : Comm := { Comm.reset with job := some 9, ptsize := 4, table := [(0, tPlace)], chans := [(0, 0xB000000001000000), (8, 0x9000000000000000)] }
/-- The engine context in it: x8 = 0x1200, x11 = 2. -/
def tNet : State := ((tEngine.updEng tw fun e => { e with td := (List.range 4).map fun i => (8 + i, BitVec.allOnes 64) }).updRegs tw fun r => { r with x := r.x ++ [(8, 0x1200), (11, 2)] }).updComm 5 fun _ => tComm

theorem test_ready (k : Nat) (hk : k ∈ [0, 1, 2, 3, 4, 7, 8]) :
    txReady tNet tw k ((tNet.ctx tw).eng.tdSet 1) (if k = 3 then 2 else if k = 7 then 3 else 0) := by
  simp only [List.mem_cons, List.not_mem_nil, or_false] at hk
  have hd : ∀ p, (tNet.commOf 5).outstanding 0 p < chDepth ((tNet.commOf 5).chan 0) := fun p =>
    (by decide +kernel : 0 < chDepth ((tNet.commOf 5).chan 0))
  rcases hk with rfl | rfl | rfl | rfl | rfl | rfl | rfl
  all_goals simp only [txReady]
  all_goals and_intros
  all_goals first | exact hd | decide +kernel
/-- The conditions of a slot that is turned away, by communication context: 5, and 6, which has no channel. -/
theorem test_witness_TransportSlotsIssue :
    let t := tNet.landed tw
    let d := (t.ctx tw).eng.tdSet 1
    let e := (t.ctx tw).eng.tdSet 2
    (enFree tNet tw ∧ txReady tNet tw 8 d 0) ∧ 14 ≤ tdFmt e ∧ tdHandle e ≠ 0 ∧ tdFmt e ∉ [0, 1, 9, 10] ∧ tdFmt d < 14 ∧
    chV ((tNet.commOf 5).chan 1) = false ∧ chKind ((tNet.commOf 5).chan 0) ≠ 1 ∧ (tNet.commOf 5).posted.length < 4096 ∧
    chV ((tQuiet.commOf 5).chan 0) = false ∧ (t.opTrap 5 0 e 0).isSome = true ∧
    (let u := tQuiet.landed tw
     (u.txWait tw 4 ((u.ctx tw).eng.tdSet 1) 0) = false ∧ (u.opTrap 5 4 ((u.ctx tw).eng.tdSet 1) 0).isSome = true) ∧
    ((t.ctx tw).regs.getX 8).toNat % 64 = 0 ∧ ((t.ctx tw).regs.getX 1).toNat % 64 ≠ 0 := by
  refine ⟨⟨by unfold enFree Quiet Free; decide +kernel, test_ready 8 (by decide)⟩, ?_⟩
  decide +kernel

/-- The same with every trigger slot armed. -/
def tSlot : TrigSlot := ⟨0, [], 0, 0, 0, 0, [9, 0, 0, 0], 0, 0, 77⟩
def tArmed : State := tNet.updComm 5 fun m => { m with trigs := (List.range 16).map fun i => (i, tSlot) }
theorem test_witness_TriggersAndCounters :
    let t := tNet.landed tw
    enFree tNet tw ∧ (t.waittRegion tw 29).isSome = true ∧ (t.waittRegion tw 1).isNone = true ∧
    (t.waittRegion tw 29).any (fun r => (t.plPhase tw 6 r.1 r.2.1 r.2.2).isNone && !t.regionReady 5 r.1 r.2.1 r.2.2) = true ∧
    (tNet.commOf 5).trigs = [] ∧ (4 : BitVec 3).toNat ≤ 4 ∧ tSlot.holds (tNet.commOf 5) = false ∧
    enFree tArmed tw ∧ (tArmed.commOf 5).freeTrig = none := by
  unfold enFree Quiet Free; decide +kernel
/-- The placement bit of chunk 0 set: the region is ready. -/
theorem test_witness_ready :
    let s := (tNet.updCore 0 fun k => { k with ab := [(0, 1)] }).updComm 5 fun m => { m with table := [(0, { tPlace with
      words := [0, 0, 0, 0x0001000100010001, 0x0001000100010001, 0x1000000000000000, 2 ^ 63, 0] })] }
    ((s.landed tw).waittRegion tw 29).any (fun r => (s.landed tw).regionReady 5 r.1 r.2.1 r.2.2) = true := by decide +kernel

/-- The engine context in a domain of level 2 with three members, arriving, released, and alone in none. -/
def tSync (a : Option Nat) : State := (tEngine.updSys tw fun y => { y with dom := [(2, BitVec.ofNat 64 (3 * 2 ^ 20))] }).updSched tw fun k => { k with syncAt := a }
/-- The task with the deterministic flag, and a clash of phase 3. -/
def tDet : State := { tNet.updCtx tw fun c => { c with phases := [⟨0, 64, 3, 1, true⟩, ⟨32, 64, 3, 2, false⟩] } with tasks := [(77, { tTask with det := true })] }
theorem test_witness_TaskSlots : enFree tNet tw ∧ (tNet.ctx tw).pipe.ntr.length < 4 ∧ ((tNet.ctx tw).regs.getX 8).toNat % 256 = 0 ∧
    (tNet.landed tw).acqBusy tw = false ∧ (tNet.clu (clusterOf 0)).seq.length < 64 ∧ ((tNet.ctx tw).regs.getX 1).toNat % 8 ≠ 0 ∧ (tNet.landed tw).mayEnd tw = true ∧
    ((tNet.landed tw).ctx tw).domCount 0 = 0 ∧ enFree (tSync none) tw ∧ ((tSync none).ctx tw).domCount 2 ≠ 0 ∧
    ((tSync (some 10)).ctx tw).sched.syncAt = some (2 + 8) ∧ ((tSync none).landed tw).hasLees tw = false ∧
    ((tSync none).landed tw).hasHeld 77 = false ∧ ((tSync none).landed tw).globalOpen tw false = false ∧ ((tSync none).landed tw).cacheBusy 77 = false ∧
    (tNet.landed tw).isDet tw = false ∧ enFree tDet tw ∧ (tDet.landed tw).isDet tw = true ∧ (tDet.landed tw).phaseBusy tw = false ∧
    phaseClash (tDet.ctx tw).phases 2 = false ∧ phaseClash (tDet.ctx tw).phases 3 = true ∧ (tNet.ctx tw).trid ≠ none ∧
    (tNet.ctx tw).evRoom = true ∧ (tNet.ctx ⟨0, 3⟩).trid = none ∧ (tNet.ctx ⟨0, 3⟩).evRoom = true ∧
    (let q := (List.range 64).map fun _ => (⟨0, 0⟩ : Rec)
     let s := (tNet.updCtx tw fun c => { c with evq := q }).updCtx ⟨0, 3⟩ fun c => { c with evq := q }
     enFree s tw ∧ ((s.landed tw).ctx tw).evRoom = false ∧ ((s.landed tw).ctx ⟨0, 3⟩).evRoom = false) := by
  unfold enFree Quiet Free; decide +kernel

/-- Block 7 of die 0 valid for ASID 5, closed or open by this task; block 8 of ASID 6. -/
def tBlocks (o : Bool) : State := (tNet.updDie 0 fun d => { d with
  blocks := [(7, [if o then 0x9000000000000000 else 0x8000000000000000, 0, 0, 5, 0, 0, 0, 0, 0]), (8, [0x8000000000000000, 0, 0, 6, 0, 0, 0, 0, 0])]
  steps := [(7, { (State.reset).stepOf 0 7 with trid := 77 })] }).updSched tw fun k => { k with digWait := some (digMark 0 7 + (if o then 1 else 2)) }
theorem test_witness_StepAndDigestSlots : enFree (tBlocks false) tw ∧ enFree (tBlocks true) tw ∧
    bkV ((tBlocks true).block 0 9) = false ∧ bkV ((tBlocks true).block 0 8) = true ∧ bkAsid ((tBlocks true).block 0 8) ≠ 5 ∧
    bkV ((tBlocks true).block 0 7) = true ∧ bkAsid ((tBlocks true).block 0 7) = 5 ∧ bkOpen ((tBlocks true).block 0 7) = true ∧
    idOf ((tBlocks true).stepOf 0 7).trid = idOf ((tBlocks true).ctx tw).tridN ∧ bkOpen ((tBlocks false).block 0 7) = false ∧
    ((tBlocks true).ctx tw).regs.getX 1 = 7 ∧ chV (((tBlocks true).commOf 5).chan 0) = true ∧ chKind (((tBlocks true).commOf 5).chan 0) = 3 ∧
    (match ((tBlocks true).landed tw).digPeers tw 0 with | .ok _ => true | .error _ => false) = true ∧
    (∀ e ∈ ((tBlocks true).ctx tw).copyq, e.kind ≠ .digest) := by
  unfold enFree Quiet Free; decide +kernel

/-! ## Events of cores, pages and copies -/

/-- The quiet context with issue held by nobody, and a program that it may fetch. -/
def tIdleCore : State := tProgram.updCore 0 fun k => { k with holder := none }
/-- The quiet context stalled, and with a trap that waits for its boundary. -/
def tStalled : State := tQuiet.updSched tw fun k => { k with run := .stalled }
def tDeferred : State := tQuiet.updSched tw fun k => { k with deferred := [trapDeferred 22 2 0 0x100 false none] }
/-- The context stopped for an escalation while its copy entry runs. -/
def tStopped : State := tCopying.updSched tw fun k => { k with run := .held, stop := some ⟨3, 0x400000, false, [], false⟩ }
/-- A translation that die 0 holds, a shoot-down of it that waits for a held release, and a held release. -/
def tTlb : TlbEnt := ⟨5, false, 0x10000, 0x10000, 0x20000, 0, 1, false, 0, false, true, true⟩
/-- Where its first byte lies. -/
def tTlbXl : Xl := ⟨0x20000, 0, 1, 0, false, false, true, true, 0x10000, 0x10000, false⟩
def tHeldRel : HeldRel := ⟨77, 5, 0x10000, 0, 0, 3, tTlbXl, 3, [1, 2], none, 0x1010, false⟩
def tWalks : State := ({ tQuiet with releases := [tHeldRel] } : State).updDie 0 fun d => { d with tlb := [tTlb], shoots := [⟨2 ^ 63, 5, 0x800⟩] }
/-- The context's lees log holds a store of the task that stands before that release. -/
def tLees (remote : Bool) : Lees := ⟨0, 77, 5, 2, 0xF000000000010000, [(0, 9)], .store, 1, 0, 4, 0x1010, false, false, false, remote, none, false, false, 0⟩

theorem test_witness_CoreEvents :
    ({ tQuiet with board := { tQuiet.board with boot := 5 } } : State).awake = false ∧
    ({ tQuiet with board := { tQuiet.board with gate := 16 } } : State).gatedCycle = true ∧
    tIdleCore.awake = true ∧ tIdleCore.gatedCycle = false ∧ (tIdleCore.core 0).holder = none ∧
    (∀ j, j < 4 → ((tIdleCore.ctx ⟨0, j⟩).trid ≠ none ↔ j = 0)) ∧ tIdleCore.runNow tw = .ready ∧
    (tStalled.core 0).holder = some 0 ∧ (tStalled.ctx tw).sched.run = .stalled ∧ (tQuiet.ctx tw).sched.run = .ready ∧
    (tQuiet.ctx tw).sched.deferred = [] ∧ (tDeferred.ctx tw).sched.stop = none ∧ (tDeferred.ctx tw).sched.run ≠ .idle ∧
    (tDeferred.ctx tw).sched.deferred.length = 1 ∧ (tStopped.ctx tw).sched.stop.isSome = true ∧ (tStopped.ctx tw).sched.stop.all (fun st => !tStopped.stopReady tw st) = true ∧
    (match (tQuiet.walk 0 5 0x10000).1 with | .error _ => true | .ok _ => false) = true ∧
    (∀ x ∈ (tWalks.core 0).tlb, x.hits 5 0x10000 = false) ∧ (tWalks.die 0).tlb.find? (fun x => x.hits 5 0x10000) = some tTlb ∧
    tWalks.releases = [tHeldRel] ∧ tWalks.goReady tHeldRel = true ∧ tHeldRel.atop = none ∧
    tWalks.atCluster tHeldRel.x tHeldRel.ord.wide = false ∧
    isHbm (tHeldRel.x.pa + tHeldRel.data.length) = true ∧ tWalks.placeWait (clusterOf 0) tHeldRel.x tHeldRel.ord.wide true 2 = none ∧
    (tWalks.updCore 0 fun k => { k with lees := [tLees false] }).goReady tHeldRel = false ∧
    (tWalks.die 0).shoots.length = 1 ∧ ({ tWalks with releases := [] } : State).shootBusy 0 ⟨2 ^ 63, 5, 0x800⟩ = false ∧
    (tQuiet.die 0).shoots = [] := by decide +kernel
/-- A shoot-down of every page of ASID 5 waits for that release. -/
theorem test_witness_shootBusy : tWalks.shootBusy 0 ⟨2 ^ 63, 5, 0x800⟩ = true := by decide +kernel

/-- A copy queue whose first entry is this one, of a digest of 16 bytes of AB. -/
def tDig (e : CopyEnt) : State := tRun { tCtx with copyq := [e] }
def tDigest : CopyEnt := { tEntry with kind := .digest, words := [0x1000000000000000, 16, 1] }
/-- A fence of queues 0 and 2 at the head of both, and of queue 0 alone. -/
def tFence : CopyEnt := { tEntry with kind := .fence 5 1, started := false }
def tFences (n : Nat) : State := tRun { tCtx with copyq := [tFence, { tFence with q := n }] }
/-- An install of entry 0, of a word that is not valid, by the context. -/
def tInstall : State := (tNet.updEng tw fun e => { e with plwPend := some (0, 5) })

theorem test_witness_PageAndCopyEvents :
    (∀ x ∈ [0, 511], (tQuiet.core x).lees = []) ∧ (∀ d ∈ [0, 3], (tQuiet.die d).tx.rxHeld = []) ∧
    (((tAbsent (some ⟨5, 0x10100, false⟩)).ctx tw).sched.hold).isSome = true ∧
    ((tQuiet.updCore 0 fun k => { k with lees := [tLees true] }).core 0).lees = [tLees true] ∧ (tLees true).op = .store ∧ (tLees true).failed = false ∧
    tQuiet.releases = [] ∧ tQuiet.cacheOps = [] ∧ tQuiet.portsOff = false ∧ (tQuiet.updCore 0 fun k => { k with lees := [tLees true] }).leesSent (tLees true) = false ∧
    (runsOf (tLees true).size (tLees true).vec (tLees true).data).length = 1 ∧
    tQuiet.copyNext 0 = none ∧
    (tDig { tDigest with started := false, words := [4, 16, 1] }).copyNext 0 = some (0, { tDigest with started := false, words := [4, 16, 1] }) ∧
    (tDig { tDigest with started := false, words := [4, 16, 1] }).copyVerdict tw { tDigest with started := false, words := [4, 16, 1] } = some (2, 0) ∧
    (tDig tDigest).copyNext 0 = some (0, tDigest) ∧ (tDig tDigest).copyVerdict tw tDigest = none ∧ digBuf tDigest.words = true ∧
    bufSpace (wd tDigest.words 0) < 3 ∧ digWords tDigest.words = 2 ∧ cpSig tDigest.words = false ∧
    ((tDig tDigest).ctx tw).headOf 1 = none ∧ ((tDig { tDigest with ended := true }).ctx tw).headOf 0 = some { tDigest with ended := true } ∧
    ((tDig { tDigest with status := 2 }).ctx tw).headOf 0 = some { tDigest with status := 2 } ∧
    (maskQueues 5).head? = some 0 ∧ (∀ j ∈ maskQueues 5, (((tFences 2).ctx tw).headOf j).any (fun x => x.kind == .fence 5 1) = true) ∧
    (((tRun { tCtx with copyq := [tFence, { tEntry with q := 2 }] }).ctx tw).headOf 2).any (fun x => x.kind != .fence 5 1) = true ∧
    (tQuiet.ctx tw).eng.plwPend = none ∧ (tInstall.ctx tw).eng.plwPend = some (0, 5) ∧
    tInstall.plCheck tw 5 0 ((List.range 8).map fun i => tget 0 (tInstall.ctx tw).eng.plw i) = 0 ∧ bit (0 : W64) 24 = false := by
  decide +kernel

/-! ## Events of the transports -/

/-- The network context with an entry of one FP32 element, in PLACE mode or in ordered reduce mode, owned by the task, at AB offset 64 with
its bitmap at AB offset 0; the translation of tTlb; and a receive that no header matches. -/
def tRx (mode : Nat) : State := (tNet.updComm 5 fun m => { m with
  table := [(0, { tPlace with words := [0x1000000000000040, 0, 0, 0x0001000100010001, 0x0001000100010001, 0x1000000000000000,
    BitVec.ofNat 64 (2 ^ 63 + mode * 2 ^ 55 + 2 ^ 28), BitVec.ofNat 64 (77 * 2 ^ 40)] })] }).updDie 0 fun d => { d with tlb := [tTlb] }
/-- PLACE and REDUCE of 4 bytes, and a global load of 8 bytes at 0x10000. -/
def tPlacePkt : Packet := { tPacket with w0 := 0x1000000000000004, payload := [1, 2, 3, 4] }
def tReducePkt : Packet := { tPacket with w0 := 0x1100000000000004, w2 := 1, payload := [0, 0, 128, 63] }
def tLoadPkt : Packet := { tPacket with psn := 0, w0 := 0x1300000000000000, w1 := 0x10000, w2 := 8 }
/-- A digest from device 3. -/
def tDigestPkt : Packet := { tPacket with w0 := 0x1200000000000008, w1 := 7, w2 := 0, payload := [1], sem := [7, 0] }
/-- A message header of 8 bytes. -/
def tHeader : MsgHdr := ⟨{ tPacket with psn := 0, w0 := 0x1200000000000000, sem := [0x55, 8, 4] }, 0x55, 8, 4⟩
/-- An operation of kind 1 (TXGET) of the context, not ready, and the same done. -/
def tTxOp : TxOp := {
  opid := 4, kind := 1, core := 0, ctx := 0, trid := 77, asid := 5, tag := 1, source := 4, noev := true,
  words := [0, 0, 0, 0, 0, 0, 0, 0], xb := 0, kperm := 0, total := 0, acked := 0, bytes := 0, ctr := none, status := 0, fkind := 0, addr := 0,
  group := 0, gseq := 0, gdig := 0, peers := [3], started := true, ready := false, mark := 0, data := none, src := none, waitPg := none }
def tOps (r : Bool) : State := (tRx 0).updTx 0 fun t => { t with ops := [{ tTxOp with ready := r }] }
/-- A global load of x7 that flow 7 has not answered, and its answer. -/
def tAcc : GAcc := {
  id := 6, core := 0, ctx := 0, trid := 77, va := 0xF000000000010000, op := 3, atop := 0, load := true, acq := false,
  data := [], wdata := 0, size := 8, kperm := 0, bundle := 0x1010, opid := 6,
  sync := false, lees := none, grp := none, vec := false, psn := 0 }
def tFlow : Flow := { peer := 3, asid := 5, rod := false, next := 6, slot := 0, pkts := [], accs := [], timeouts := 2, rtoAt := 0, rtoPsn := some 5 }
def tAwait : State := ((tRx 0).updTx 0 fun t => { t with flows := [(7, { tFlow with accs := [tAcc] })] }).updPipe tw fun p =>
  { p with sb := [⟨.x, 7, wholeMask, 0, 6, 0, false, false⟩] }
def tAnswerPkt : Packet := { tPacket with psn := 0, w0 := 0x1600000000000008, payload := [9], resp := true }

theorem test_witness_ArrivingPackets_kinds :
    (tRx 0).portsOff = false ∧ ({ tRx 0 with board := { Board.reset with pstate := 2 } } : State).portsOff = true ∧ (tRx 0).isHeld 0 tPacket = false ∧ tCoreHeld.isHeld 0 tPacket = true ∧ tPacket.unsupp = false ∧ tPacket.trim = false ∧
    (((tRx 0).updTx 0 fun t => { t with seen := [(pktKey tPacket, 5)] }).die 0).tx.seen.contains (pktKey tPacket, tPacket.psn) = true ∧
    ((tRx 0).die 0).tx.seen = [] ∧
    ((tRx 0).arriving 0 { tPlacePkt with job := 8 }).isNone = true ∧ (tRx 0).ctxOfJob 8 = none ∧ (tRx 0).ctxOfJob 9 = some 5 ∧
    (pkMalformed { tLoadPkt with psn := 3 }).isNone = true ∧ pkOrdered tLoadPkt = true ∧ tget 0 ((tRx 0).die 0).tx.rodNext (pktKey tLoadPkt) = 0 ∧
    ((tRx 0).arriving 0 { tLoadPkt with job := 8 }).isNone = true ∧ (tRx 0).ctxOfPkt 0 { tLoadPkt with job := 8 } = none ∧
    ((tRx 0).arriving 0 tPlacePkt).isNone = true ∧ tPlacePkt.sem = [] ∧ fld tPlacePkt.w3 63 48 = 0 ∧
    (match (tRx 0).judge tPlacePkt false with | .ok a _ => a == 5 | _ => false) = true ∧
    ((tRx 2).arriving 0 tReducePkt).isNone = true ∧ (match (tRx 2).judge tReducePkt true with | .ok a _ => a == 5 | _ => false) = true ∧
    tget [] (tRx 2).tags 3 = [] ∧ (match (tRx 0).judge { tPlacePkt with w0 := 0x1000000000010004 } false with | .retry => true | _ => false) = true ∧
    ((tRx 0).arriving 0 { tPlacePkt with w0 := 0x1000000000010004 }).isNone = true ∧
    ((tRx 0).arriving 0 { tPlacePkt with sem := [4, 0] }).isNone = true ∧
    ((tRx 0).arriving 0 tDigestPkt).isNone = true ∧ tDigestPkt.sem ≠ [] ∧ pkLen tDigestPkt = 8 := by decide +kernel

theorem test_witness_ArrivingPackets_global :
    let s := (tRx 0).rodStep 0 tLoadPkt
    let fails := fun (p : Packet) => let va := s.windowVa 0 5 (fld p.w1 46 0)
      s.targetFail va (pkSize p) p (s.targetParts 0 5 va (pkSize p) p)
    ((tRx 0).arriving 0 tLoadPkt).isNone = true ∧ (tRx 0).ctxOfPkt 0 tLoadPkt = some 5 ∧ ((tRx 0).die 0).tx.rxHeld = [] ∧
    (fails tLoadPkt).isNone = true ∧ ((s.targetBias 0 5 (s.windowVa 0 5 0x10000) 8 tLoadPkt (s.targetParts 0 5 (s.windowVa 0 5 0x10000) 8 tLoadPkt)).isNone = true) ∧
    ((tRx 0).arriving 0 { tLoadPkt with w1 := 0x50000 }).isNone = true ∧
    ((fails { tLoadPkt with w1 := 0x50000 }).any fun f => f.1 != .page 0) = true := by decide +kernel

theorem test_witness_ArrivingPackets_answers :
    (tAwait.arriving 0 tAnswerPkt).isNone = true ∧ tAnswerPkt.resp = true ∧ tAnswerPkt.sem = [] ∧ ((tAwait.die 0).tx.flow 7).accs = tAcc :: [] ∧ tAcc.load = true ∧ tAcc.op = 3 ∧
    tAcc.lees = none ∧ tAwait.whereIs 77 = some tw ∧ bit tAnswerPkt.w2 5 = false ∧ bit tAnswerPkt.w2 4 = false ∧
    (tAwait.ctx tw).pipe.sb = [⟨.x, 7, wholeMask, 0, 6, 0, false, false⟩] ∧
    ((tRx 0).arrivingOn 0 tHeader.pkt true).isNone = true ∧ (tRx 0).ctxOfJob tHeader.pkt.job = some 5 ∧
    ((tRx 0).arrivingOn 0 { tHeader.pkt with job := 8 } true).isNone = true ∧ (tRx 0).ctxOfJob 8 = none ∧
    ((tRx 0).commOf 5).posted.find? (fun x => x.takes tHeader) = none ∧ ((tRx 0).commOf 5).unexp.length < 65536 ∧
    (∀ o ∈ ((tRx 0).die 0).tx.ops, o.opid ≠ 4) ∧
    (match (tRx 0).windowPages 0 5 ((tRx 0).windowVa 0 5 0x10000) 8 with
      | .ok l => ((tRx 0).unitBias .transport 0 5 false [((tRx 0).windowVa 0 5 0x10000, 8)]).isNone && ((tRx 0).readPages 5 l).1.length == 8
      | .error _ => false) = true ∧
    ((tOps false).die 0).tx.ops = [tTxOp] ∧ tTxOp.kind = 1 ∧ tTxOp.ready = false ∧ (tOps false).opDone 0 4 = none ∧
    ((tOps true).die 0).tx.ops = [{ tTxOp with ready := true }] ∧ tTxOp.noev = true ∧ tTxOp.ctr = none ∧ tTxOp.kind ≤ 5 := by decide +kernel

/-- A packet of flow 7 that is out. -/
def tOut : OutPkt := {
  psn := 5, job := 9, slot := 3, w0 := 0, w1 := 0, w2 := 0, w3 := 0, sem := [], payload := [], opid := 0,
  acked := false, sent := true, backoff := false, missing := false, sync := false, noret := false, wire := true, since := 0, left := 1 }
/-- Die 0 with that flow, a peer 3 whose slot 2 is marked down and probed, and a transport core that runs, in cycle 2^20. -/
def tFlows (k : OutPkt) : State := { ((tRx 0).updTc 0 fun t => { t with state := 1 }).updTx 0 fun t => { t with
  flows := [(7, { tFlow with pkts := [k] })]
  peers := [(3, { (t.peer 3) with slots := [(2, { (t.slot 3 2) with weight := 0, probing := true, probed := true })] })] } with cycle := 2 ^ 20 }

theorem test_witness_FlowEvents :
    let s := tFlows tOut
    let d := s.die 0
    (∀ k ∈ (d.tx.flow 7).pkts, 4 ≤ k.psn ∧ k.psn ≠ 4) ∧ tget? d.tx.flows 7 = some (d.tx.flow 7) ∧
    (d.tx.flow 7).pkts = [tOut] ∧ tOut.left ≤ 1 ∧ d.tx.ops = [] ∧ (d.tx.flow 7).peer = 3 ∧ (d.tx.peer 3).rto * 1024 ≤ s.cycle ∧
    tOut.since + (d.tx.peer 3).rto * 1024 ≤ s.cycle ∧ (d.tx.flow 7).rtoAt + (d.tx.peer 3).rto * 1024 ≤ s.cycle ∧
    s.cycle < 2 ^ 20 + (d.tx.peer 3).rto * 1024 ∧
    (let f := ((tFlows { tOut with backoff := true, since := 2 ^ 20 }).die 0).tx
     (f.flow 7).pkts = [{ tOut with backoff := true, since := 2 ^ 20 }]) ∧
    (∀ k ∈ (((tFlows { tOut with sent := false }).die 0).tx.flow 7).pkts, k.sent = false ∨ k.acked = true) ∧
    d.tc.state = 1 ∧ d.tc.queue.length < 1023 ∧ (d.tx.flow 7).peer < 8192 ∧ tOut.slot < 64 ∧ (d.tx.slot 3 3).port < 32 ∧
    s.cycle % 2 ^ 20 = 0 ∧ ({ tQuiet with cycle := 1 } : State).cycle % 2 ^ 20 ≠ 0 ∧
    (tget? d.tx.peers 3).isSome = true ∧ (d.tx.slot 3 0).probed = false ∧ (d.tx.slot 3 2).probed = true ∧
    (d.tx.slot 3 2).port ∉ d.tx.linkDown ∧ (d.tx.slot 3 2).port < 32 ∧
    (let e := (s.updTx 0 fun t => { t with peers := [], flows := [], linkDown := [4] }).die 0
     4 ∈ e.tx.linkDown ∧ 17 ∉ e.tx.linkDown ∧ e.tx.peers = [] ∧ e.tx.flows = [] ∧ e.tc.state = 1 ∧ e.tc.queue.length < 1024) := by
  decide +kernel

/-! ## Events of queues, the dispatcher, the sequencers, the host edge and the board -/

/-- Words written to HBM. -/
def tPoke (s : State) (pa : Nat) (ws : List W64) : State := s.homeWrite 0 pa (ws.map fun w => toBytes 8 w.toNat).flatten
/-- A record of task 50 in ASID 5, with x1 = 21. -/
def tRec : List W64 := [0x1000050000000032, 0x1000, 0x2000, 0x1004] ++ List.replicate 20 0 ++ [21, 0, 0, 0, 0, 0, 0, 0]
/-- The record with its lists, which are empty. -/
def tRecData : RecData := ⟨tRec, [], [], []⟩
/-- Queue 2 of interface 1 (ASID 5, four queues), its QCB at 0x100000 with its ring of four packets at 0x200000, this packet first; the
record at 0x20000, which ASID 5 sees at 0x10000. -/
def tQuery (p : List W64) (k : List QPkt) : State :=
  let s := ({ tQuiet with
    link := { tQuiet.link with vicfg := [(8, 0x80A0040400800000)] }
    queues := [(514, ⟨0x100000, 1, 2, 0, k, none, true⟩)] } : State).updDie 0 fun d => { d with tlb := [tTlb] }
  tPoke (tPoke (tPoke s 0x20000 tRec) 0x200000 p) 0x100000 [0x200000, 0x0805041000000000, 0, 0, 1]
/-- A LAUNCH of one task, a WAIT for 21 at the first of its words, a SIGNAL of 2 there, a MARK, and no packet. -/
def tLaunch : List W64 := [2 ^ 56, 0x10000, 2 ^ 32, 0, 0, 0, 0, 0]
def tWait : List W64 := [2 ^ 57, 0x100C0, 21, 0, 0, 0, 0, 0]
def tSignal : List W64 := [3 * 2 ^ 56, 0x100C0, 2, 0, 0, 0, 0, 0]
def tMark : List W64 := [2 ^ 58, 9, 0, 0, 0, 0, 0, 0]
def tBad : List W64 := [5 * 2 ^ 56, 0, 0, 0, 0, 0, 0, 0]
/-- A packet that has started. -/
def tStarted (p : List W64) : QPkt := ⟨0, [], p, 0, [], false, false, false, 0⟩
/-- A LAUNCH whose one task is to be dispatched. -/
def tTodo : QPkt := ⟨0, [tRecData], tLaunch, 1, [50], false, false, false, 0⟩

theorem test_witness_QueueEvents :
    let s := tQuery tLaunch []
    tget? s.queues (queueKey 1 2) = some ⟨0x100000, 1, 2, 0, [], none, true⟩ ∧ 6 ≤ s.board.boot ∧ bit (s.vi 1 0) 63 = true ∧
    2 < fld (s.vi 1 0) 41 32 ∧ fld (s.vi 1 0) 41 32 ≤ 4 ∧ (0 : Nat) < s.qWr 514 ∧ s.qWr 514 ≤ 4 ∧ (4 : Nat) ≤ s.qDone 514 + s.qSize 514 ∧
    isHbm (0x100000 + 64) = true ∧ s.nextPkt 3 = none ∧ s.nextPkt 514 = some tLaunch ∧ pkGood tLaunch = true ∧ pkType tLaunch = 1 ∧
    s.launchBad 514 tLaunch = false ∧ s.launchBad 514 (tLaunch.set 2 0) = true ∧ (s.launchBias 514 0x10000).isNone = true ∧
    (tQuery (tLaunch.set 2 0) []).nextPkt 514 = some (tLaunch.set 2 0) ∧
    (match s.launchRecs 514 0x10000 with
      | .ok (l, u) => l == [tRecData] && u.launchTasks 514 tLaunch l == some [50] && (s.launchTasks 514 tLaunch [{ tRecData with words := [] }]).isNone
      | .error _ => false) = true ∧
    (match (tPoke s 0x20040 [0x10001]).launchRecs 514 0x10000, (tPoke (tPoke s 0x20030 [0x10001]) 0x20048 [1]).launchRecs 514 0x10000 with
      | .ok _, .error none => true | _, _ => false) = true ∧
    (tQuery tBad []).nextPkt 514 = some tBad ∧ pkGood tBad = false := by decide +kernel

theorem test_witness_QueueEvents_others :
    let s := tQuery tLaunch []
    (tQuery tWait []).nextPkt 514 = some tWait ∧ pkGood tWait = true ∧ pkType tWait = 2 ∧ s.waitOf 514 = none ∧
    (tQuery tWait [tStarted tWait]).waitOf 514 = some (tStarted tWait) ∧
    (s.unitBias .dispatch 0 (s.qAsid 514) true [(wd tWait 1, 8)]).isNone = true ∧
    (match s.waitFinds 514 (tStarted tWait), s.waitFinds 514 (tStarted (tWait.set 2 22)), s.waitFinds 514 (tStarted (tWait.set 1 0x50000)) with
      | .ok (true, _), .ok (false, _), .error f => f != .page 0 | _, _, _ => false) = true ∧
    (tQuery tSignal []).nextPkt 514 = some tSignal ∧ pkGood tSignal = true ∧ pkType tSignal = 3 ∧
    (match s.unitAdd .dispatch 0 5 0x100C0 2 with | .ok _ => true | _ => false) = true ∧ s.qDie 514 = 0 ∧ s.qAsid 514 = 5 ∧
    (tQuery tMark []).nextPkt 514 = some tMark ∧ pkGood tMark = true ∧ pkType tMark = 4 ∧ s.mayDecide 0 1 = true ∧
    (s.die 0).trace.follow = false ∧ wd tMark 2 = 0 ∧
    (let f := s.updDie 0 fun d => { d with trace := { d.trace with ctl := 8, head := 256 } }
     f.mayDecide 0 1 = false ∧ (f.die 0).trace.follow = false) ∧ s.launchOver 514 = none ∧
    (tQuery tLaunch [tStarted tLaunch]).launchOver 514 = some (tStarted tLaunch) ∧ wd tLaunch 4 = 0 ∧
    fld (s.homeW 0x100008) 47 42 = 1 ∧ fld (s.vi 1 0) 62 53 = 5 ∧ fld (s.homeW 0x100008) 57 48 = 5 ∧ fld (s.vi 1 0) 52 42 = 1 := by
  decide +kernel

/-- The commands' first words: an OP for task 50 and context 1 of core 0, for task 77 and context 0, and for core 1. -/
def tCmd50 (op : Nat) : W64 := mkW [(op, 56), (1, 45), (50, 0)]
def tCmd77 (op : Nat) : W64 := mkW [(op, 56), (77, 0)]
def tCmdCore1 : W64 := mkW [(5, 56), (1, 47)]
/-- Where a task is to be saved. -/
def tSave : SaveTo := ⟨0x400000, false, none⟩
/-- The context at a bundle that it can run, while its copy entry runs. -/
def tPrepared : State := tProgram.updCtx tw fun c => { c with copyq := [tEntry] }
/-- The task saved; the context asked to stop softly, at its boundary; and late. -/
def tSaved : State := { tQuery tLaunch [] with tasks := [(50, { tTask with saved := true })] }
def tSoft (cy : Nat) : State := { tPrepared.updSched tw fun k =>
  { k with preempt := some ⟨false, 0, true, 0x400000, false, [0], false⟩ } with cycle := cy }
/-- The task ending with status 5. -/
def tEnding : State := tQuiet.updSched tw fun k => { k with ending := some (5, 0) }
/-- A record at the head of cluster 0's sequencer. -/
def tSeqEnt (d : Option RecData) : SeqEnt := ⟨0x10000, 5, BitVec.allOnes 64, 0, 77, none, d⟩
def tSequenced (d : Option RecData) : State := (tQuery tLaunch []).updClu 0 fun c => { c with seq := [tSeqEnt d] }

theorem test_witness_DispatchEvents :
    let s := tQuery tLaunch []
    atRest s 0 ∧ isCmd (tCmd50 1) 1 ∧ isCmd (tCmd50 2) 2 ∧ (∀ op, op < 7 → 1 ≤ op → ¬ isCmd (tCmd50 7) op) ∧
    s.mayDecide 0 1 = true ∧ (s.die 0).trace.follow = false ∧ fld (tCmd50 1) 55 47 = 0 ∧ fld (tCmd50 1) 46 45 = 1 ∧ dieOf 0 = 0 ∧
    s.isIdle ⟨0, 1⟩ = true ∧ fld (tCmd50 1) 23 0 = 50 ∧ s.launchOf 0 50 = none ∧ tSave.behalf = none ∧
    s.freshKey 50 = 50 ∧ tSaved.freshKey 50 = 16777266 ∧ idOf 16777266 = 50 ∧ fld (s.homeW 0x20000) 49 40 = 5 ∧
    (s.ctx tw).trid ≠ none ∧ (s.ctx tw).leaving = false ∧
    ((s.newRec 0 50 0x20000 none).any fun x => x.1 == tRecData && !s.recRefused 0 5 x.1 && !phase0Bad x.1 && !x.1.gang) = true ∧
    tRecData.rankBad ((50 + 2 ^ 24 - tRecData.trid) % 2 ^ 24) = false ∧
    (let h := tQuery tLaunch [tTodo]
     h.launchOf 0 50 = some (514, tTodo) ∧ tTodo.recFor 50 = some tRecData ∧ fld (wd tTodo.words 3) 7 0 = 0 ∧ h.recRefused 0 5 tRecData = false ∧
     ({ h with link := { h.link with vicfg := [(8, 0x80A0040400800000 ||| 2 ^ 20)] } } : State).viFull 1 = false ∧
     fld (h.qcbW 514 1) 57 48 = 5) ∧
    s.named 50 = [] ∧ tSaved.savedKey 50 tSave.addr = some 50 ∧ s.stoppedKey 50 = none ∧ tSaved.stoppedKey 50 = some 50 ∧
    tget? tSaved.tasks 50 = some { tTask with saved := true } ∧ tSaved.mayResume ⟨0, 1⟩ 50 { tTask with saved := true } = true ∧
    tTask.queue = none ∧ tTask.gang = none ∧ tSaved.isIdle ⟨0, 1⟩ = true ∧
    ({ tSaved with tasks := [(50, { tTask with saved := true, resident := true, core := 3 })] } : State).mayResume ⟨0, 1⟩ 50
      { tTask with saved := true, resident := true, core := 3 } = false ∧ (s.ctx ⟨0, 1⟩).trid = none := by
  unfold atRest isCmd; decide +kernel

theorem test_witness_DispatchEvents_stops :
    isCmd (tCmd77 3) 3 ∧ isCmd (tCmd77 4) 4 ∧ isCmd (tCmd77 6) 6 ∧ isCmd (tCmd77 5) 5 ∧ isCmd tCmdCore1 5 ∧ fld (600 : W64) 63 16 = 0 ∧
    (tQuiet.ctx tw).trid = some 77 ∧ fld (tCmd77 3) 23 0 = idOf 77 ∧ tget? tQuiet.tasks 77 = some tTask ∧ tTask.lren = true ∧
    (tQuiet.ctx tw).sched.stop = none ∧ (tQuiet.ctx tw).sched.preempt = none ∧ (tQuiet.ctx tw).sched.run ≠ .waiting ∧
    tQuiet.mayDecide 0 1 = true ∧ (tQuiet.die 0).trace.follow = false ∧ atRest tQuiet 0 := by
  unfold atRest isCmd; decide +kernel

theorem test_witness_DispatchEvents_hard :
    (tPrepared.ctx tw).trid = some 77 ∧ (tPrepared.ctx tw).sched.stop = none ∧ (tPrepared.ctx tw).sched.deferred = [] ∧
    (tPrepared.ctx tw).sched.preempt = none ∧ (tPrepared.ctx tw).sched.ending = none ∧ (tPrepared.dueTrap tw).isNone = true ∧
    (∃ e ∈ (tPrepared.ctx tw).copyq, e.started = true) ∧ tget? tPrepared.tasks 77 = some tTask ∧ atRest tPrepared 0 ∧
    tQuiet.softReady tw = false ∧ (tSoft 0).softReady tw = true ∧ ((tSoft 0).dueTrap tw).isNone = true ∧ ((tSoft 0).ctx tw).pipe.ntr = [] ∧
    (let u := (tSoft 0).updPipe tw fun p => { p with ntr := [⟨0, 20, 0, none, none⟩] }
     u.softReady tw = true ∧ (u.ctx tw).pipe.ntr ≠ [] ∧ (u.dueTrap tw).isNone = true) ∧
    (tSoft 13999).softLate tw = false ∧ (tSoft 14000).softLate tw = true ∧ ((tSoft 14000).ctx tw).sched.deferred = [] ∧
    fld tCmdCore1 55 47 = 1 ∧ fld (600 : W64) 15 0 ≠ 0 ∧ tQuiet.spareUsed 600 = false ∧ tget 0 tQuiet.spares 0 < 2 ∧
    2 ≤ tget 0 ({ tQuiet with spares := [(0, 2)] } : State).spares (clusterOf 1) ∧ tPrepared.spareUsed 600 = false ∧
    (∀ k, k < 4 → (tQuiet.ctx ⟨1, k⟩).trid = none) ∧ (∀ k, k < 4 → k ≠ 0 → (tPrepared.ctx ⟨0, k⟩).trid = none) ∧
    (tQuiet.ctx ⟨0, 1⟩).trid.map idOf ≠ some 50 ∧
    (tEnding.ctx tw).sched.ending = some (5, 0) ∧ tEnding.mayEnd tw = true ∧ tQuiet.endReady tw = false := by
  unfold atRest; decide +kernel

/-- The record as it stands, with GANG, and none whose list can be read; the list of the last is misaligned. -/
theorem test_witness_DispatchEvents_sequencer :
    (tQuery tLaunch []).seqReady 0 = false ∧ ((tSequenced (some tRecData)).clu 0).seq = [tSeqEnt (some tRecData)] ∧
    (tSequenced (some tRecData)).seqReady 0 = true ∧ (tSequenced none).mayDecide 0 1 = true ∧ ((tSequenced none).die 0).trace.follow = false ∧
    (tSequenced (some tRecData)).seqTarget 0 (tSeqEnt (some tRecData)) = some ⟨0, 1⟩ ∧
    (tSequenced none).recRefused 0 5 tRecData = false ∧ phase0Bad tRecData = false ∧ tRecData.rankBad 0 = false ∧ tRecData.gang = false ∧
    tRecData.sup = false ∧ (⟨tRec.set 0 0x1100050000000032, [], [], []⟩ : RecData).gang = true ∧
    (let u := tPoke (tPoke (tSequenced none) 0x20030 [0x10001]) 0x20048 [1]
     u.seqReady 0 = true ∧ (u.recBias (taskReader 0 5 (BitVec.allOnes 64)) 0 5 0x10000).isNone = true ∧
     (match u.seqTake 0 (tSeqEnt none) with | .error none => true | _ => false) = true) := by decide +kernel

/-- Block 7 of one tile, whose digests and map stand in tTlb's page, with a request. -/
def tBlockWords : List W64 := [0x8000000000101100, 0x0001000100000000, 0, 5, 0x10000, 0, 0x10100, 0, 0]
def tStep (k : StepReq) : State := (tQuery tLaunch []).updDie 0 fun d => { d with
  blocks := [(7, tBlockWords.set 0 0x9000000000101100)]
  steps := [(7, { (State.reset).stepOf 0 7 with trid := 77, reqs := [⟨k, 0, 0, 77, 3⟩] })] }
/-- A trace that is replayed, with the decision of step 3 of the block next. -/
def tDiverges : State := tPoke ((tStep .stepb).updDie 0 fun d => { d with trace := { d.trace with base := 0x18000, ctl := 8 + 128 } }) 0x28000
  [7 * 2 ^ 58 + 5 * 2 ^ 48, 77 * 2 ^ 40, 7 * 2 ^ 56 + 3 * 2 ^ 40 + 2 ^ 24, 0]
/-- The quiet context with one NTR that waits, its task with or without a nest of four tiles, and a slice of it. -/
def tNtr (due : Nat) : NtrReq := ⟨2, due, 0, none, none⟩
def tNest (nest : Bool) (pos : Nat) (due : Nat) : State := { tRun { tCtx with
    slice := ⟨1, 3, pos, false, true, 0⟩
    pipe := { tCtx.pipe with ntr := [tNtr due] } } with
  tasks := [(77, { tTask with nest := nest, order := 228, n := [4, 1, 1, 1] })] }
/-- A SYNC of one member, and a DIGCMP whose one digest, from device 3, agrees. -/
def tAlone : State := (tSync (some 2)).updSys tw fun y => { y with dom := [(2, BitVec.ofNat 64 (2 ^ 20))] }
def tJudged : State := ((tNet.updSched tw fun k => { k with digWait := some (digMark 0 7) }))

theorem test_witness_SequencerEvents :
    blockRefused tBlockWords = false ∧ blockRefused (tBlockWords.set 1 0) = true ∧ (255 : Nat) < 256 ∧
    bkOpen (tQuiet.block 0 255) = false ∧ bkOpen ((tStep .stepe).block 0 7) = true ∧ (tQuiet.stepOf 0 7).reqs = [] ∧
    ((tStep .stepe).stepOf 0 7).reqs = [⟨.stepe, 0, 0, 77, 3⟩] ∧ ((tStep .stepb).stepOf 0 7).reqs = [⟨.stepb, 0, 0, 77, 3⟩] ∧
    (tStep .stepe).stepReady 0 7 ⟨.stepe, 0, 0, 77, 3⟩ = true ∧ (tStep .stepb).stepReady 0 7 ⟨.stepb, 0, 0, 77, 3⟩ = true ∧
    ((tStep .stepb).updCtx tw fun c => { c with evq := List.replicate 64 ⟨0, 0⟩ }).stepReady 0 7 ⟨.stepb, 0, 0, 77, 3⟩ = false ∧
    ((tStep .stepb).updCtx tw fun c => { c with evq := List.replicate 64 ⟨0, 0⟩ }).stepFree 0 7 ⟨.stepb, 0, 0, 77, 3⟩ = false ∧
    ((tStep .stepb).block 0 7).length = 9 ∧ bkRows ((tStep .stepb).block 0 7) = 1 ∧ bkTiles ((tStep .stepb).block 0 7) = 1 ∧
    (seqRun (fun s i => s.stepPart 0 7 false i) 2 0 (tStep .stepb)).2.2.isNone = true ∧ (tStep .stepb).stepDiverges 0 7 = false ∧
    tDiverges.stepReady 0 7 ⟨.stepb, 0, 0, 77, 3⟩ = true ∧ tDiverges.stepDiverges 0 7 = true ∧
    ((tStep .stepb).stepBias 0 7 false).isNone = true ∧ ((tStep .stepe).stepBias 0 7 true).isNone = true ∧
    (let u := (tNest false 3 18).updDie 0 fun d => { d with trace := { d.trace with ctl := 8 + 128 } }
     { u with tasks := [(77, { tTask with nest := true, dyn := true, order := 228, n := [4, 1, 1, 1] })] }.ntrReady tw = false ∧ u.mayDecide 0 1 = true) ∧
    (seqRun (fun s i => s.closePart 0 7 i) 2 0 (tStep .stepe)).2.2.isNone = true ∧
    tQuiet.ntrAsked tw = false ∧ (tNest true 1 18).ntrReady tw = true ∧ (tNest false 1 18).ntrReady tw = true ∧
    ((tNest true 1 18).ctx tw).pipe.ntr = [tNtr 18] ∧ ((tNest true 1 18).ctx tw).pipe.inflight = [] ∧
    ((tNest true 1 18).ctx tw).pipe.count < 18 ∧ ((tNest true 3 18).ctx tw).slice.hi ≤ ((tNest true 3 18).ctx tw).slice.pos ∧
    ((tNest true 1 18).ctx tw).slice.have_ = true ∧ ((tNest true 1 18).ctx tw).sched.stop = none ∧
    (tNest true 1 10).ntrReady tw = true ∧ 10 ≤ ((tNest true 1 10).ctx tw).pipe.count ∧
    ((tNest true 1 18).updSched tw fun k => { k with stop := some ⟨1, 0, false, [], false⟩ }).ntrReady tw = true ∧
    (tSync (some 2)).syncReady tw = false ∧ (tAlone.ctx tw).sched.syncAt = some 2 ∧ tAlone.syncReady tw = true ∧
    (tAlone.ctx tw).trid ≠ none ∧ (tAlone.ctx tw).domCount 2 ≠ 0 ∧ (tNet.digReady tw).isNone = true ∧ tJudged.digReady tw = some true ∧
    (tJudged.ctx tw).sched.digWait = some (digMark 0 7) := by decide +kernel

/-- A device whose host is coherent, with HDM from 0 and the bias table at 0x300000; its link up. -/
def tEdge : State := { tQuiet with link := { tQuiet.link with up := true, cxl := true, biasbase := 0x300000 } }
/-- A public key, the digest of it that is fused, and the two halves of a signature of the image below, made outside the model. -/
def tKeyX : Nat := 0xf567bf656ceac7804e84f53489c8075b7748bb5e12fbfd0421154d1574865b37eb27f85ff0a29328fd54f9eebdc4639c
def tKeyY : Nat := 0x6eaea1b2d4860ca83079376fd653f395fb1da899e068a89bb1e8017d947b4b1a878f490f199421b55c6ee4f74e05eccc
def tKey : Nat := 0x76e0527954fa54329458a8fb5c2e7c66118d1430e05733f787b3eb4e5aff20dd5c4a8334f2ad73f03805154b1db013d4
def tSigR : Nat := 0xbfd152465458e5b9f1a903eafef03095ebfd52c5f9ea97be74de9194355fcfb40ec097315adf6afdefba21f44b625b48
def tSigS : Nat := 0xd8ad19bca039a109474e360db04766f1ab310577e14a23489eec4b8dfe7083efdd68d81c7169b4d745711c0c1b6c759b
/-- The bytes of the image, the first highest: MAGIC, HDRVER 1, TARGET 1, VERSION 3, LENGTH 4, the key, the signature and 1, 2, 3, 4. -/
def tImageNat : Nat :=
  ((((0x57464E5A0100010003000000000000000400000000000000 * 2 ^ 64 * 2 ^ 384 + tKeyX) * 2 ^ 384 + tKeyY) * 2 ^ 1408 + tSigR) * 2 ^ 384 + tSigS) *
    2 ^ 1312 + 0x01020304
def tImgByte (i : Nat) : Byte := if i < 516 then BitVec.ofNat 8 (tImageNat >>> (8 * (515 - i))) else 0
/-- The image at 0x600000, which a reload of target 1 judges. -/
def tImage : State := { tQuiet with
  board := { tQuiet.board with fwresult := 1, fwctl := 0x600002, keyDigest := tKey }
  mem := mwrite [] 0x600000 ((List.range 516).map tImgByte) }
theorem test_imageByte : tImage.imageByte = tImgByte := by
  funext i
  have h : tImage.imageByte i = mget (mwrite [] 0x600000 ((List.range 516).map tImgByte)) (0x600000 + i) := by
    have ha : fld tImage.board.fwctl 63 12 * 4096 + i = 0x600000 + i := rfl
    have hl : tget? tImage.l2 ((0x600000 + i) / 128) = none := rfl
    simp only [State.imageByte, State.homeByte, ha, hl, ite_self]
    simp only [tImage]
  rw [h]
  by_cases hi : i < 516
  · rw [mget_mwrite_in _ _ _ _ (by simpa using hi)]
    simp
  · rw [mget_mwrite_out _ _ _ _ (.inr (by simp; omega))]
    simp [mget, tImgByte, hi]
/-- A flip of page 5 that waits for n answers, and a snoop of line 5. -/
def tFlip (n : Nat) : State := { tEdge with
  link := { tEdge.link with flips := [(5, n)], snoops := [(5, ⟨true, false⟩)], holds := [(6, 9)] }, cycle := 9 }
/-- A host-homed line in the level-2 cache. -/
def tHostLine : State := { tEdge with l2 := [(0xC000000000000 / 128, ⟨7, 1, 5, 0, true⟩)] }

theorem test_witness_HostEdgeEvents :
    tget? tEdge.link.holds 6 = none ∧ tget? (tFlip 2).link.holds 6 = some 9 ∧ 9 ≤ (tFlip 2).cycle ∧
    ({ tFlip 2 with cycle := 8 } : State).cycle < 9 ∧ tQuiet.coherentHost = false ∧ tEdge.coherentHost = true ∧
    isHbm 0x5000 = true ∧ tEdge.pageBusy 5 = false ∧ tEdge.link.waiting = [] ∧ tget? (tFlip 2).link.flips 5 = some 2 ∧ tEdge.link.biasbase ≠ 0 ∧
    tEdge.hostBias 0x5000 = false ∧ (tPoke tEdge 0x300000 [32]).hostBias 0x5000 = true ∧ (tPoke tEdge 0x300000 [32]).pageBusy 5 = false ∧
    (tPoke tEdge 0x300000 [32]).link.waiting = [] ∧ (7 : Nat) < 8 ∧ (511 : Nat) < 512 ∧ 0x5000 + 8 ≤ 0xC000000000 ∧
    tget? (tFlip 2).link.snoops (0x280 / 128) = some ⟨true, false⟩ ∧ tget? tEdge.link.snoops (0x5000 / 128) = none ∧
    tget? tEdge.link.flips 5 = none ∧ tget? (tFlip 1).link.flips 5 = some 1 ∧ tget? (tFlip 1).link.snoops (0x5000 / 128) = none ∧
    tget? tEdge.l2 5 = none ∧ isHostHomed (0xC000000000000 / 128 * 128) = true ∧ isHostHomed (5 * 128) = false ∧
    (tget? tHostLine.l2 (0xC000000000000 / 128)).isSome = true ∧ (tEdge.ctx ⟨0, 3⟩).trid = none ∧ (tEdge.ctx tw).trid ≠ none ∧
    (tEdge.ctx tw).sched.run ≠ .idle ∧ tEdge.link.up = true ∧ 6 ≤ tEdge.board.boot ∧
    ({ tEdge with link := { tEdge.link with up := false } } : State).link.up = false := by decide +kernel

theorem test_witness_BoardEvents : State.reset.board.boot < 6 ∧ tQuiet.board.znfM = true ∧ Memory.wf tQuiet.mem ∧
    tQuiet.link.biasbase = 0 ∧ tEdge.link.biasbase ≠ 0 ∧ 6 ≤ tQuiet.board.boot ∧ isHbm 0x1000 = true ∧
    tget? tQuiet.l2 (0x1000 / 128) = none ∧ (11 : Nat) < 12 ∧ (31 : Nat) < 32 ∧ (63 : Nat) < 64 ∧ (∀ r ∈ tQuiet.remaps, r.stack ≠ 11) ∧
    tQuiet.board.powered = true ∧ ({ tQuiet with board := { tQuiet.board with powered := false } } : State).board.powered = false ∧
    tQuiet.board.fwresult ≠ 1 ∧ tget 0 tQuiet.board.floors 1 < fld (2 ^ 32 + 1 : W64) 63 32 ∧
    fld (1 : W64) 63 32 ≤ tget 0 tQuiet.board.floors (fld (1 : W64) 1 0) := by decide +kernel
/-- The image passes every check; of a version below its floor, for another target, or with another signature it fails one. -/
theorem test_witness_Reloads : tImage.board.fwresult = 1 ∧ tImage.fwTarget = 1 ∧ headerGood tImage.imageByte 1 = true ∧
    imageSigned tImage.imageByte tImage.board.keyDigest = true ∧ tget 0 tImage.board.floors 1 ≤ imgFld tImage.imageByte 8 4 ∧
    imgFld tImage.imageByte 6 2 = 1 ∧ imgFld tImage.imageByte 8 4 < 4 ∧ headerGood tQuiet.imageByte 1 = false ∧
    (∀ d, d < 4 → (tImage.die d).tc.state ≠ 1) := by
  rw [test_imageByte]; decide +kernel
theorem test_witness_PowerAndHeat :
    ({ tQuiet with board := { tQuiet.board with znfM := false } } : State).board.znfM = false ∧
    ({ tQuiet with board := { tQuiet.board with forced := true } } : State).board.forced = true ∧ tQuiet.board.znfM = true ∧
    tQuiet.board.forced = false ∧ tQuiet.board.pstate ≠ 2 ∧ tQuiet.board.gate ≤ 15 ∧ max 800 (min 3200 tQuiet.board.limit) < 3201 ∧
    ({ tQuiet with board := { tQuiet.board with pstate := 2 } } : State).board.pstate = 2 ∧ (3 : Nat) < 4 ∧ (919 : Nat) < 920 ∧
    tQuiet.anyQueueActive = false ∧ tSaved.anyQueueActive = true ∧ tEdge.anyTask = true ∧ State.reset.anyTask = false := by decide +kernel

/-! ## What events do, with values worked out from the rules by hand -/

/-- What holds of the next state. -/
def after (i : Instr) (s : State) (f : State → Bool) : Bool := ((okState (exec i s)).map f).getD false

/-- R349: NEW gives x1 to x8 the record's words 24 to 31 and starts at its PC word. -/
theorem test_dispatchNew : after (.dispatchNew 0 (tCmd50 1) 0x20000 3 tSave 0) (tQuery tLaunch []) (fun t =>
    (t.ctx ⟨0, 1⟩).trid == some 50 && (t.ctx ⟨0, 1⟩).pipe.pc == 0x1004 && (t.ctx ⟨0, 1⟩).regs.getX 1 == 21) = true := by decide +kernel
/-- R354: SIGNAL of 2 to a word of 21 leaves 23, and its packet is complete. -/
theorem test_signal : after (.signalPacket 514) (tQuery tSignal []) (fun t => t.homeW 0x200C0 == 23 && t.qDone 514 == 1) = true := by
  decide +kernel
/-- R353: a doorbell that moves WRIDX back halts the queue with ERR 4. -/
theorem test_doorbell : after (.doorbellWrite 1 2 0) (tQuery tLaunch []) (fun t =>
    t.qState 514 == 2 && fld (t.qcbW 514 1) 15 0 == 4) = true := by decide +kernel
/-- R318, R360: the tile of position 1 of a nest of four along its first loop has coordinates (1, 0, 0, 0). -/
theorem test_ntrAnswer : after (.ntrAnswer 0 0) (tNest true 1 18) (fun t =>
    (t.ctx tw).pipe.inflight.map (fun r => r.value) == [1] && (t.ctx tw).slice.pos == 2) = true := by decide +kernel
/-- R210: STEPE leaves STEPNO 1 and the step closed. -/
theorem test_stepe : after (.stepeClose 0 7) (tStep .stepe) (fun t =>
    !bkOpen (t.block 0 7) && bkStepno (t.block 0 7) == 1) = true := by decide +kernel
/-- R387: a host read of a page in device bias puts it in host bias, held for 4,096 cycles. -/
theorem test_hostRead : after (.hostHdmRequest 0x5008 (.read 8)) tEdge (fun t =>
    t.hostBias 0x5008 && tget? t.link.holds 5 == some 4096) = true := by decide +kernel
/-- R400: an uncorrectable error leaves 0 in its 64 bytes, and no more. -/
theorem test_ecc : (let t := ({ tQuiet with mem := mwrite [] 0x1000 ((List.range 72).map fun i => BitVec.ofNat 8 (i + 1)) } : State).uncorrected (.hbm 0x1010)
    t.homeW 0x1000 == 0 && t.homeW 0x1038 == 0 && t.homeByte 0x1040 == 65) = true := by decide +kernel
/-- R412 to R414: a reload of target 1 is busy; its image is accepted, is BADSIG with another last byte,. -/
theorem test_reload : after (.fwReload 0x600003) tQuiet (fun t => t.board.fwresult == 1 && t.fwTarget == 1) = true ∧
    tImage.fwVerdict = 2 ∧ fwJudge (fun i => if i = 515 then 9 else tImgByte i) 1 tKey 0 = 3 := by
  unfold State.fwVerdict
  rw [test_imageByte]
  decide +kernel
/-- R467: a PLACE of four bytes at AB offset 64 lands there, and is answered "accepted". -/
theorem test_place : after (.rxPlace 0 tPlacePkt) (tRx 0) (fun t =>
    (t.core 0).ab.any (fun c => c == (64, 1)) && (t.die 0).tx.answer == some (tPlacePkt.src, tPlacePkt.flow, tPlacePkt.psn, 0)) = true := by
  decide +kernel
/-- R320: a task that ends leaves its context as at reset. -/
theorem test_taskEnd : after (.taskEnd 0 0) tEnding (fun t => t.ctx tw == Ctx.reset && (tget? t.tasks 77).isNone) = true := by
  decide +kernel

end Sys2Proof
end

/-! PROOFS. RNS3 containers and the slots of the FM lane (R42, R283 to R289). -/

namespace Sys2Proof

open Machine Claims

/-! ## RNS3 containers (R40 to R43) -/

/-- A canonical container holds each channel's value reduced by its modulus, byte by byte (R40). -/
theorem rnsMk_bytes (f : Nat → Nat) :
    rnsMk f % 256 = f 0 % 251 ∧ rnsMk f / 256 % 256 = f 1 % 241 ∧ rnsMk f / 65536 = f 2 % 239 := by
  unfold rnsMk; omega

/-- The bytes of the container that RNSENC writes are the residues of its integer (R42). -/
theorem rnsEnc_bytes (v : Int) : ((rnsEnc v % 256 : Nat) : Int) = v % 251 ∧
    ((rnsEnc v / 256 % 256 : Nat) : Int) = v % 241 ∧ ((rnsEnc v / 65536 : Nat) : Int) = v % 239 := by
  obtain ⟨h0, h1, h2⟩ := rnsMk_bytes fun i => (v % (rnsMod i : Int)).toNat
  unfold rnsEnc
  rw [h0, h1, h2]
  simp only [rnsMod]
  omega

/-- The channels of a container are its bytes, reduced (R40). -/
theorem rnsChan_eq (c : Nat) :
    rnsChan c 0 = c % 256 % 251 ∧ rnsChan c 1 = c / 256 % 256 % 241 ∧ rnsChan c 2 = c / 65536 % 256 % 239 := by
  simp [rnsChan, rnsMod, Nat.shiftRight_eq_div_pow]

/-- crt_decode answers in the signed range (R43). -/
theorem crtDecode_range (c : Nat) : -7228674 ≤ crtDecode c ∧ crtDecode c ≤ 7228674 := by
  simp only [crtDecode]
  split <;> omega

/-- What crt_decode answers stands modulo M for the sum of the channels' parts (R43). -/
theorem crtDecode_modEq (c : Nat) : crtDecode c ≡
    ((rnsChan c 0 * 228 % 251 * 57599 + rnsChan c 1 * 12 % 241 * 59989 + rnsChan c 2 * 10 % 239 * 60491 : Nat) : Int)
      [ZMOD 14457349] := by
  simp only [crtDecode, Int.ModEq]
  split <;> omega

/-- crt_decode answers an integer with the container's residues: each channel's weight is 1 modulo its own modulus and 0 modulo the
others (R43). -/
theorem crtDecode_residues (c : Nat) : crtDecode c ≡ rnsChan c 0 [ZMOD 251] ∧ crtDecode c ≡ rnsChan c 1 [ZMOD 241] ∧
    crtDecode c ≡ rnsChan c 2 [ZMOD 239] := by
  have h := crtDecode_modEq c
  refine ⟨(h.of_dvd (by decide)).trans ?_, (h.of_dvd (by decide)).trans ?_, (h.of_dvd (by decide)).trans ?_⟩ <;>
  · simp only [Int.ModEq]
    omega

/-- Integers that agree modulo the three moduli agree modulo their product. -/
theorem modEq_of_residues {a b : Int} (h0 : a ≡ b [ZMOD 251]) (h1 : a ≡ b [ZMOD 241]) (h2 : a ≡ b [ZMOD 239]) :
    (a - b) % 14457349 = 0 := by
  unfold Int.ModEq at *
  omega

/-- The channels of the container that RNSENC writes are the residues of its integer (R42). -/
theorem rnsChan_rnsEnc (v : Int) : (rnsChan (rnsEnc v) 0 : Int) = v % 251 ∧ (rnsChan (rnsEnc v) 1 : Int) = v % 241 ∧
    (rnsChan (rnsEnc v) 2 : Int) = v % 239 := by
  have hb := rnsEnc_bytes v
  have hc := rnsChan_eq (rnsEnc v)
  generalize rnsEnc v = c at hb hc
  omega

/-- The container that RNSENC writes stands for its integer reduced modulo M (R42). -/
theorem crtDecode_rnsEnc (v : Int) : (crtDecode (rnsEnc v) - v) % 14457349 = 0 := by
  obtain ⟨c0, c1, c2⟩ := rnsChan_rnsEnc v
  obtain ⟨r0, r1, r2⟩ := crtDecode_residues (rnsEnc v)
  rw [c0] at r0
  rw [c1] at r1
  rw [c2] at r2
  exact modEq_of_residues (r0.trans (Int.mod_modEq ..)) (r1.trans (Int.mod_modEq ..)) (r2.trans (Int.mod_modEq ..))

/-- RNSENC writes its integer's residues, and crt_decode gives the integer back modulo M (R42, R43). -/
theorem rnsEncoding : RnsEncoding := fun v =>
  have ⟨h0, h1, h2⟩ := rnsEnc_bytes v
  have ⟨hlo, hhi⟩ := crtDecode_range (rnsEnc v)
  ⟨h0, h1, h2, hlo, hhi, crtDecode_rnsEnc v⟩

/-! ## Issue of an FM slot -/

section Lane

/-- What lands at issue leaves a slot's rounding as it is (R267). -/
theorem rounding_landed (s : State) (w : At) (x : Option Rnd) : (s.landed w).rounding w x = s.rounding w x := by
  cases x with
  | none => rfl
  | some r => simp [State.rounding, State.streamKey, State.taskOf]

/-- An extension that R269 allows is no reason for ILLEGAL. -/
theorem rndIll_of_rndGoodF {o : FOpd} {x : Option Rnd} (h : rndGoodF o x) : rndIll o.fmt.toNat x = false := by
  cases x with
  | none => rfl
  | some r =>
    obtain ⟨hrm, hsat⟩ := h
    have hfmt : o.fmt.toNat = 10 ↔ o.fmt = 10 := by rw [← BitVec.toNat_inj]; rfl
    simp only [rndIll, Bool.or_eq_false_iff, Bool.and_eq_false_imp, decide_eq_false_iff_not, beq_eq_false_iff_ne, ne_eq, hfmt]
    exact ⟨by omega, hsat⟩

/-- A slot of the FM lane that only gives one result issues in a free context where it is not ILLEGAL. -/
theorem issueOne_oneResult {s : State} {w : At} (h : Free s w) {words : Nat} {ill : Bool} {reads writes : List (RFile × Nat)}
    {res : At → State → Res} (hill : ill = false) :
    issueOne { lane := 3, words := words, ill := ill, reads := reads, writes := writes, results := fun a t => [res a t] } s =
      .next (s.issued w words [res w (s.landed w)]) :=
  issueOne_value h hill rfl rfl rfl rfl rfl (by simp) (fun _ => rfl) fun _ _ => rfl

variable {s : State} {w : At} {o : FOpd} {x : Option Rnd} {lat : Nat} {ok useB : Bool} {val : Rounding → Regs → VReg}

/-- An FM slot that writes a whole v register issues in a free context where its fields are as its rule asks, whatever
registers it reads. -/
theorem issueOne_slotFM_reads (h : Free s w) (hx : rndGoodF o x) (hok : ok = true) (reads : List (RFile × Nat)) :
    issueOne { slotFM o x lat ok useB val with reads := reads } s =
      .next (s.issued w (if x.isSome then 2 else 1)
        [Res.v o.vd.toNat (val (s.rounding w x) ((s.landed w).ctx w).regs) lat]) := by
  rw [← rounding_landed]
  exact issueOne_oneResult h (by simp [slotFM, hok, rndIll_of_rndGoodF hx])

/-- The same with the registers that its fields name. -/
theorem issueOne_slotFM (h : Free s w) (hx : rndGoodF o x) (hok : ok = true) :
    issueOne (slotFM o x lat ok useB val) s =
      .next (s.issued w (if x.isSome then 2 else 1)
        [Res.v o.vd.toNat (val (s.rounding w x) ((s.landed w).ctx w).regs) lat]) :=
  issueOne_slotFM_reads (useB := useB) h hx hok (slotFM o x lat ok useB val).reads

end Lane

/-! ## The fields of an FM slot -/

/-- SUB names a format by each of its codes 0 to 4 (Table 12-6). -/
theorem subFmt_ne_15 {n : Nat} (h : n ≤ 4) : subFmt n ≠ 15 := by
  interval_cases n <;> decide

/-- The blocks of 32 elements of a register (R285). -/
theorem scaleBlocks_eq (fmt : Nat) : elemCount (fmtWidth fmt) / 32 = scaleBlocks fmt := rfl

/-- A field holds a code exactly if its number is the code's. -/
theorem beq_eq_toNat_beq {n : Nat} (a b : BitVec n) : (a == b) = (a.toNat == b.toNat) := by
  rw [Bool.eq_iff_iff, beq_iff_eq, beq_iff_eq, BitVec.toNat_inj]

/-- An element of one of two registers is one of their elements. -/
theorem ev_ite (r : Regs) (p : Prop) [Decidable p] (a b : R5) (w i : Nat) :
    ev r (if p then a else b) w i = if p then elem (r.getV a.toNat) w i else elem (r.getV b.toNat) w i := by
  split <;> rfl

/-! ## The FM slots follow their rules (R283 to R289) -/

/-- Where issue is free, an instruction whose fields are those of its FM rule completes with the rule's result in flight and
nothing else changed. -/
def FollowsFormatRule (s : State) (w : At) (i : Instr) : Prop :=
  ∀ (o : FOpd) (x : Option Rnd) (res : Res), rndGoodF o x →
    formatRule (s.rounding w x) ((s.landed w).ctx w).regs i = some (o, x, res) →
    exec i s = .next (s.issued w (if x.isSome then 2 else 1) [res])

/-- An instruction whose rule is one condition and one result follows it where, under the condition, the result issues. -/
theorem follows_of_condition {s : State} {w : At} {i : Instr} {c : Bool} {o : FOpd} {x : Option Rnd} {res : Rounding → Res}
    (hi : ∀ q, formatRule q ((s.landed w).ctx w).regs i = if c then some (o, x, res q) else none)
    (hex : rndGoodF o x → c = true →
      exec i s = .next (s.issued w (if x.isSome then 2 else 1) [res (s.rounding w x)])) : FollowsFormatRule s w i := by
  intro _ _ _ hg hr
  rw [hi] at hr
  obtain ⟨hc, ⟨⟩⟩ := Option.ite_none_right_eq_some.mp hr
  exact hex hg hc

section Slots

variable {s : State} {w : At} (h : Free s w) (o : FOpd) (x : Option Rnd)
include h

/-! ### Packing (R283, R284) -/

/-- PACK converts the elements of both sources, in order. -/
theorem pack_follows : FollowsFormatRule s w (.pack o x) := by
  refine follows_of_condition (fun _ => rfl) fun hg hc => issueOne_slotFM h hg ?_
  simp only [Bool.and_eq_true, Nat.ble_eq, Nat.blt_eq] at hc
  simp [hc, subFmt_ne_15]

/-- UNPACK converts the part of va that the vb field names. -/
theorem unpack_follows : FollowsFormatRule s w (.unpack o) :=
  follows_of_condition (fun _ => rfl) fun hg hc => issueOne_slotFM h hg (by simpa using hc)

/-! ### Block scales (R285, R286) -/

/-- VSCALE reads an e register in place of vb. -/
theorem vscale_follows : FollowsFormatRule s w (.vscale o x) :=
  follows_of_condition (fun _ => rfl) fun hg hc =>
    issueOne_slotFM_reads h hg (by simpa [beq_eq_toNat_beq, scaleBlocks_eq] using hc) _

/-- CPYE reads an e register alone. -/
theorem cpye_follows : FollowsFormatRule s w (.cpye o) :=
  follows_of_condition (fun _ => rfl) fun hg hc =>
    issueOne_slotFM_reads h hg (by simpa [beq_eq_toNat_beq, scaleBlocks_eq] using hc) _

/-- BSCALE writes a part of an e register, the one FM result that is no whole v register. -/
theorem bscale_follows : FollowsFormatRule s w (.bscale o) :=
  follows_of_condition (fun _ => rfl) fun _ hc => issueOne_oneResult h (by simpa [scaleBlocks_eq] using hc)

/-! ### Permutes (R287) -/

theorem perm_follows : FollowsFormatRule s w (.perm o) :=
  follows_of_condition (fun _ => rfl) fun hg hc => issueOne_slotFM h hg hc

/-- ZIP takes even elements from va and odd ones from vb. -/
theorem zip_follows : FollowsFormatRule s w (.zip o) := by
  refine follows_of_condition (fun _ => rfl) fun hg hc => ?_
  simp only [ev_ite]
  exact issueOne_slotFM h hg (by simpa using hc)

theorem unzip_follows : FollowsFormatRule s w (.unzip o) :=
  follows_of_condition (fun _ => rfl) fun hg hc => issueOne_slotFM h hg (by simpa using hc)

theorem xpose_follows : FollowsFormatRule s w (.xpose o) :=
  follows_of_condition (fun _ => rfl) fun hg hc => issueOne_slotFM h hg (by rwa [← Bool.and_assoc])

/-! ### Residues (R288) -/

theorem rnsenc_follows : FollowsFormatRule s w (.rnsenc o) :=
  follows_of_condition (fun _ => rfl) fun hg hc => issueOne_slotFM h hg hc

theorem rnsdec_follows : FollowsFormatRule s w (.rnsdec o) :=
  follows_of_condition (fun _ => rfl) fun hg hc => issueOne_slotFM h hg (by simpa using hc)

/-! ### Stochastic pairs (R289) -/

/-- SWSPLIT decides between SW32 and SW16 by its format. -/
theorem swsplit_follows : FollowsFormatRule s w (.swsplit o) := by
  refine follows_of_condition (fun _ => rfl) fun hg hc => ?_
  simp only [beq_eq_toNat_beq o.fmt, BitVec.reduceToNat] at hc ⊢
  change issueOne (slotSwsplit o) s = _
  unfold slotSwsplit
  exact issueOne_slotFM h hg (by simpa using hc)

/-- SWJOIN has one result for SW32, and one for SW16, which keeps the other half of vd. -/
theorem swjoin_follows : FollowsFormatRule s w (.swjoin o x) := by
  intro _ _ _ hg hr
  simp only [formatRule, beq_eq_toNat_beq o.fmt, BitVec.reduceToNat] at hr
  split at hr
  next hc =>
    cases hr
    refine (issueOne_slotFM_reads h hg (by simp [hc]) _).trans ?_
    obtain ⟨hf, -⟩ := Bool.and_eq_true_iff.mp hc
    simp [hf, ev]
  next =>
    obtain ⟨hc, ⟨⟩⟩ := Option.ite_none_right_eq_some.mp hr
    simp only [Bool.and_eq_true, beq_iff_eq, Nat.ble_eq] at hc
    obtain ⟨hf, hh⟩ := hc
    refine (issueOne_slotFM_reads h hg (by simp [hf, hh]) _).trans ?_
    simp [hf, ev]

end Slots

/-- Every instruction that has an FM rule follows it (R283 to R289). -/
theorem followsFormatRule {s : State} {w : At} (h : Free s w) (i : Instr) : FollowsFormatRule s w i := by
  cases i with
  | pack o x => exact pack_follows h o x
  | unpack o => exact unpack_follows h o
  | vscale o x => exact vscale_follows h o x
  | cpye o => exact cpye_follows h o
  | bscale o => exact bscale_follows h o
  | perm o => exact perm_follows h o
  | zip o => exact zip_follows h o
  | unzip o => exact unzip_follows h o
  | xpose o => exact xpose_follows h o
  | rnsenc o => exact rnsenc_follows h o
  | rnsdec o => exact rnsdec_follows h o
  | swsplit o => exact swsplit_follows h o
  | swjoin o x => exact swjoin_follows h o x
  | _ => intro _ _ _ _ hr; cases hr

/-- Settles O5: the residues of RNSENC by the Chinese remainder theorem on the three moduli, and each FM slot by the lemma that
issues a slot whose only effect is one result. -/
theorem formatResults : Obligations.FormatResults :=
  ⟨rnsEncoding, fun _ _ i o x res h hr hg => followsFormatRule h i o x res hg hr⟩

end Sys2Proof

/-! PROOFS. The transport core in focus, its updates, and its branches (R155, R158, R172). -/

namespace Sys2Proof.Machine

/-! ## Updates of a transport core -/

/-- Two updates of one transport core are one. -/
theorem State.updTc_updTc (s : State) (d : Nat) (f g : Tc → Tc) : (s.updTc d f).updTc d g = s.updTc d fun t => g (f t) := by
  simp [State.updTc, State.updDie, State.die]

/-- An update of a transport core depends only on what it makes of that core. -/
theorem State.updTc_congr {s : State} {d : Nat} {f g : Tc → Tc} (h : f (s.die d).tc = g (s.die d).tc) :
    s.updTc d f = s.updTc d g := by
  simp [State.updTc, State.updDie, h]

/-! ## Where a transport core goes next (R158, R172) -/

/-- A jump within the instruction memory goes to its target, and keeps the core busy for one cycle more (R155). -/
theorem State.tcJump_inside (s : State) (d : Nat) {n : Int} (f : State → State) (hlo : 0 ≤ n) (hhi : n ≤ 16383) :
    s.tcJump d n f = (f s).updTc d fun t => { t with pc := BitVec.ofNat 14 n.toNat, busy := 1 } := by
  have hin : ¬ (n < 0 ∨ 16383 < n) := by omega
  simp [State.tcJump, hin]

/-- A jump out of the instruction memory faults IMEM, and `f` has no effect (R158). -/
theorem State.tcJump_outside (s : State) (d : Nat) {n : Int} (f : State → State) (h : n < 0 ∨ 16383 < n) :
    s.tcJump d n f = s.tcFault d 2 := by
  simp [State.tcJump, h]

/-- The core goes on to the next index where that is within the instruction memory. -/
theorem State.tcNext_inside (s : State) (d : Nat) (h : (s.die d).tc.pc.toNat + 1 ≤ 16383) :
    s.tcNext d = s.updTc d fun t => { t with pc := BitVec.ofNat 14 (t.pc.toNat + 1) } := by
  have hpc : (s.die d).tc.pc ≠ 16383 := by bv_omega
  rw [State.tcNext, if_neg hpc]
  exact State.updTc_congr (by simp [BitVec.ofNat_add])

end Sys2Proof.Machine

namespace Sys2Proof

open Machine Claims

/-! ## The transport core that issues -/

/-- A transport core that runs and is in focus is the one that issues. -/
theorem tcCur_of_tcRuns {s : State} {d : Nat} (h : tcRuns s d) : s.tcCur = some d := by
  obtain ⟨hfocus, hstate⟩ := h
  simp [State.tcCur, hfocus, hstate]

/-- The statements read a register of a transport core as the model does (Table 07-1). -/
theorem tr_eq_get (t : Tc) (r : R5) : tr t r = t.get r := rfl

/-! ## The branches (R172) -/

/-- What a branch of core d with target n does: within the instruction memory it changes the core by `link` and goes to n, busy for
one cycle more where it is taken; taken out of it, it faults IMEM and does nothing else. -/
def BranchesTo (s : State) (d : Nat) (n : Int) (taken : Bool) (link : Tc → Tc) (o : Host.Outcome State Fault Refusal) : Prop :=
  (0 ≤ n → n ≤ 16383 → o = .next (s.updTc d fun t =>
    { link t with pc := BitVec.ofNat 14 n.toNat, busy := if taken then 1 else (link t).busy })) ∧
  (taken = true → n < 0 ∨ 16383 < n → o = .next (s.tcFault d 2))

/-- A jump is a branch that is taken, where what it does before is the change `link` of its core. -/
theorem tcJump_branchesTo {s : State} {d : Nat} (n : Int) {f : State → State} {link : Tc → Tc}
    (hf : ∀ g, (f s).updTc d g = s.updTc d fun t => g (link t)) : BranchesTo s d n true link (.next (s.tcJump d n f)) := by
  refine ⟨fun hlo hhi => ?_, fun _ hout => by rw [State.tcJump_outside _ _ _ hout]⟩
  rw [State.tcJump_inside _ _ _ hlo hhi, hf]
  rfl

/-- Going on to the next index is a branch that is not taken. -/
theorem tcNext_branchesTo (s : State) (d : Nat) :
    BranchesTo s d ((s.die d).tc.pc.toNat + 1) false id (.next (s.tcNext d)) := by
  refine ⟨fun _ hhi => ?_, nofun⟩
  rw [State.tcNext_inside _ _ (by omega)]
  exact congrArg _ (State.updTc_congr rfl)

/-- A conditional branch goes to PC + off where its comparison holds, and to the next index otherwise. -/
theorem tcIf_branchesTo {s : State} {d : Nat} {a b : R5} {off : BitVec 16} {n : Int} (h : tcRuns s d) (holds : W64 → W64 → Bool)
    (hn : n = if holds (tr (s.die d).tc a) (tr (s.die d).tc b) then (s.die d).tc.pc.toNat + off.toInt
      else (s.die d).tc.pc.toNat + 1) :
    BranchesTo s d n (holds (tr (s.die d).tc a) (tr (s.die d).tc b)) id (tcIf s a b off holds) := by
  subst hn
  simp only [tcIf, tcCur_of_tcRuns h, ← tr_eq_get]
  by_cases hc : holds (tr (s.die d).tc a) (tr (s.die d).tc b) = true
  · simpa [hc] using tcJump_branchesTo _ fun _ => rfl
  · simpa [hc] using tcNext_branchesTo s d

/-- What an instruction writes to its transport core when it branches: CALL writes the index after it to t31. -/
def tcLink (i : Instr) (t : Tc) : Tc :=
  { t with t := match i with
    | .tcCall _ => tset t.t 31 (BitVec.ofNat 64 (t.pc.toNat + 1))
    | _ => t.t }

/-- Every branch goes to the target of its rule (R172). -/
theorem exec_branchesTo {s : State} {d : Nat} {i : Instr} {n : Int} (h : tcRuns s d) (hn : tcTarget (s.die d).tc i = some n) :
    BranchesTo s d n (tcTaken (s.die d).tc i) (tcLink i) (exec i s) := by
  cases i with
  | tcBeq a b off =>
    cases hn
    exact tcIf_branchesTo h (fun x y => x == y) (by simp)
  | tcBne a b off =>
    cases hn
    exact tcIf_branchesTo h (fun x y => x != y) (by simp)
  | tcBltu a b off =>
    cases hn
    exact tcIf_branchesTo h (fun x y => Nat.blt x.toNat y.toNat) (by simp)
  | tcJmp off =>
    cases hn
    change BranchesTo s d _ true id (execTcJmp off s)
    rw [execTcJmp, tcCur_of_tcRuns h]
    exact tcJump_branchesTo _ fun _ => rfl
  | tcCall off =>
    cases hn
    change BranchesTo s d _ true (tcLink (.tcCall off)) (execTcCall off s)
    rw [execTcCall, tcCur_of_tcRuns h]
    exact tcJump_branchesTo _ (State.updTc_updTc s d _)
  | tcRet =>
    cases hn
    change BranchesTo s d _ true id (execTcRet s)
    rw [execTcRet, tcCur_of_tcRuns h]
    exact tcJump_branchesTo _ fun _ => rfl
  | _ => cases hn

/-- Settles O42: every branch is a jump, or a choice between a jump and the next index; a jump faults before it has any effect. -/
theorem tcBranches : Obligations.TcBranches := by
  refine ⟨fun _ _ _ _ => ⟨rfl, rfl, rfl, rfl, rfl, rfl⟩, fun s d i n hruns hn => ?_⟩
  obtain ⟨hin, hout⟩ := exec_branchesTo hruns hn
  exact ⟨fun hlo hhi => (hin hlo hhi).trans (congrArg _ (State.updTc_congr rfl)), hout⟩

end Sys2Proof

/-! PROOFS. Register files under a write, and slots that name a register beyond its file (R216, R217). -/

namespace Sys2Proof.Machine

/-! ## One write of a register file (R216) -/

section Put

variable (r : Regs) {f g : RFile} {n m : Nat} (mask v : VReg)

/-- Only register 0 is discarded. -/
theorem eq_zero_of_deadReg (h : deadReg f n = true) : n = 0 := by
  simp only [deadReg, Bool.and_eq_true, beq_iff_eq] at h
  exact h.1

/-- A write of a discarded register changes no file. -/
theorem Regs.put_of_deadReg (h : deadReg f n = true) : r.put f n mask v = r := by
  obtain rfl := eq_zero_of_deadReg h
  cases f with
  | x | y | k => rfl
  | v | a | e | tl => cases h

/-- A register of a 64-bit file that is not discarded takes the masked bits and keeps the others. -/
theorem Regs.get_put_self (hf : f ≠ .v) (hd : deadReg f n = false) :
    (r.put f n mask v).get f n = merge (mask.setWidth 64) (r.get f n) (v.setWidth 64) := by
  cases f with
  | v => exact absurd rfl hf
  | x | y | k =>
    have hn : n ≠ 0 := by simpa [deadReg] using hd
    simp [Regs.put, Regs.get, Regs.getX, Regs.getY, Regs.getK, hn]
  | a | e | tl => simp [Regs.put, Regs.get, Regs.getA, Regs.getE, Regs.getTl]

/-- A write leaves the other registers of its file. -/
theorem Regs.get_put_otherReg (h : n ≠ m) : (r.put f n mask v).get f m = r.get f m := by
  cases f with
  | x | y | k =>
    by_cases hn : n = 0
    · simp [Regs.put, hn]
    · simp [Regs.put, Regs.get, Regs.getX, Regs.getY, Regs.getK, hn, tget_tset_ne _ _ _ h]
  | a | e | tl | v => simp [Regs.put, Regs.get, Regs.getA, Regs.getE, Regs.getTl, Regs.getV, tget_tset_ne _ _ _ h]

/-- A write leaves every other file. -/
theorem Regs.get_put_otherFile (h : f ≠ g) : (r.put f n mask v).get g m = r.get g m := by
  cases f with
  | x | y | k =>
    by_cases hn : n = 0
    · simp [Regs.put, hn]
    · simp only [Regs.put, if_neg hn]
      cases g <;> trivial
  | a | e | tl | v => cases g <;> trivial

/-- A write leaves every register but its own. -/
theorem Regs.get_put_of_ne (h : (f, n) ≠ (g, m)) : (r.put f n mask v).get g m = r.get g m := by
  by_cases hfg : f = g
  · subst hfg
    exact r.get_put_otherReg mask v fun hnm => h (by rw [hnm])
  · exact r.get_put_otherFile mask v hfg

/-- A write leaves the whole of every v register but its own. -/
theorem Regs.getV_put_of_ne (h : (f, n) ≠ (.v, m)) : (r.put f n mask v).getV m = r.getV m := by
  cases f with
  | v => exact tget_tset_ne _ _ _ fun hnm => h (by rw [hnm])
  | x | y | k =>
    by_cases hn : n = 0
    · simp [Regs.put, hn]
    · simp only [Regs.put, if_neg hn]
      rfl
  | a | e | tl => rfl

end Put

/-! ## Slots that are ILLEGAL (R221) -/

/-- An ILLEGAL slot traps with its lane before any other check. -/
theorem issueOne_illegal {sl : SlotSem} {s : State} {w : At} (hc : s.cur = some w) (hm : (s.ctx w).mayIssue = true)
    (hill : sl.ill = true) :
    issueOne sl s = .next (s.takeTrap w (trapAt 1 0 0 sl.lane 0) (s.ctx w).pipe.pc sl.words) :=
  issueOne_early hc hm (by simp [earlyTrap, firstSlot, hill])

/-- A register at or above its file's size may not be named (R217). -/
theorem regOk_eq_false {f : RFile} {n : Nat} (h : fileSize f ≤ n) : regOk f n = false := by
  simpa [regOk] using h

end Sys2Proof.Machine

namespace Sys2Proof

open Machine Claims

/-! ## Registers beyond their file (R217) -/

/-- The file that a code of CPY names is the one that the model reads (Table 10-2). -/
theorem cpySource_of_fileOfCode {n : Nat} {f : RFile} (h : fileOfCode n = some f) : cpySource n = f := by
  unfold fileOfCode at h
  split at h <;> cases h <;> rfl

/-- The file that a lane of CPY names is the one that the model writes (R218). -/
theorem cpyDest_of_fileOfLane {l : CpyLane} {dk : Bool} {f : RFile} (h : fileOfLane l dk = some f) :
    (cpyDest l dk).1 = f := by
  unfold fileOfLane at h
  split at h <;> cases h <;> rfl

/-- A CPY whose source or destination lies beyond its file is ILLEGAL. -/
theorem cpyIll_of_beyond {l : CpyLane} {d a piece : R5} {sf : BitVec 3} {dk : Bool}
    (h : (fileOfCode sf.toNat).any (fun f => fileSize f ≤ a.toNat) = true ∨
      (fileOfLane l dk).any (fun f => fileSize f ≤ d.toNat) = true) : cpyIll l d sf a piece dk = true := by
  simp only [Option.any_eq_true, decide_eq_true_eq] at h
  obtain ⟨f, hf, hsize⟩ | ⟨f, hf, hsize⟩ := h
  · simp [cpyIll, cpySource_of_fileOfCode hf, regOk_eq_false hsize]
  · simp [cpyIll, cpyDest_of_fileOfLane hf, regOk_eq_false hsize]

/-- An instruction that names a register beyond its file is an ILLEGAL slot of one word, in the lane that the statement names. -/
theorem exec_of_beyond {i : Instr} {lane : Nat} (h : beyond i = some lane) :
    ∃ sl : SlotSem, exec i = issueOne sl ∧ sl.ill = true ∧ sl.lane = lane ∧ sl.words = 1 := by
  cases i with
  | cpy l d sf a piece dk =>
    obtain ⟨hbeyond, ⟨⟩⟩ := Option.ite_none_right_eq_some.mp h
    exact ⟨slotCpy l d sf a piece dk, rfl, cpyIll_of_beyond hbeyond, by cases l <;> rfl, rfl⟩
  | cpye o =>
    obtain ⟨hbeyond, ⟨⟩⟩ := Option.ite_none_right_eq_some.mp h
    exact ⟨slotCpye o, rfl, by simp [slotCpye, slotFM, hbeyond], rfl, rfl⟩
  | amov d a imm =>
    obtain ⟨hbeyond, ⟨⟩⟩ := Option.ite_none_right_eq_some.mp h
    exact ⟨slotAmov d a imm, rfl, by simp [slotAmov, regOk_eq_false (f := .a) hbeyond], rfl, rfl⟩
  | ainc d a imm =>
    obtain ⟨hbeyond, ⟨⟩⟩ := Option.ite_none_right_eq_some.mp h
    exact ⟨slotAinc d a imm, rfl, by simp [slotAinc, regOk_eq_false (f := .a) hbeyond], rfl, rfl⟩
  | _ => cases h

/-- Settles O38: a write of a register by the lemmas about `Regs.put`; an instruction that names a register beyond its file by the
ILLEGAL slot that it is. -/
theorem registersReadBack : Obligations.RegistersReadBack := by
  refine ⟨⟨rfl, rfl, rfl, rfl, rfl, rfl, rfl⟩, fun s w i lane hbeyond hcur hissue => ?_, fun r mask v => ?_⟩
  · obtain ⟨sl, hexec, hill, rfl, hwords⟩ := exec_of_beyond hbeyond
    rw [hexec, issueOne_illegal hcur hissue hill, hwords]
  · exact ⟨⟨r.getX_zero, r.getY_zero, r.getK_zero⟩,
      ⟨r.put_of_deadReg mask v rfl, r.put_of_deadReg mask v rfl, r.put_of_deadReg mask v rfl⟩,
      fun _ _ hf hlive => r.get_put_self mask v hf hlive, fun n => r.getV_put n mask v,
      fun _ _ _ _ hne => r.get_put_of_ne mask v hne, fun _ _ _ hne => r.getV_put_of_ne mask v hne⟩

end Sys2Proof
